-- ==== Sys2Proof/Word.lean ====
section
/-! DEFINITION. The words of the block: a byte, an input event as the environment presents it, and an instruction word
of one of the opcode table's five formats. -/

namespace Sys2Proof

/-- A byte (u8): a reply byte, a trailer byte, an element of TXQ (20_memory R210). -/
abbrev Byte := BitVec 8

/-- A counter value or SampleWindow slot: CNT_W bits (00_scope R16, at most 32), held in the low bits of 32
(assumption log 10). -/
abbrev Count := BitVec 32

/-- The five formats of opcode_table.json. The formats number their words independently of one another, so a word means
something only together with its format (assumption log 14). -/
inductive Format where
  /-- Falling-edge count of one CONFIGURE window, 4 bits (30_encoding R310). -/
  | cmdCount
  /-- Kind code of an input event, 3 bits (30_encoding R345). -/
  | event
  /-- Step selector, SEQ in bits 3..2 and MODE in bits 1..0 (30_encoding R346). -/
  | step
  /-- Status byte of a SURVEY outcome, 8 bits (30_encoding R320). -/
  | surveyOutcome
  /-- Reply byte, 8 bits (30_encoding R320). -/
  | reply
  deriving DecidableEq, Repr

/-- An instruction word: its format, its bits (a narrower format's bits stand low, zeros above), and the natural number
`e` that an edge event carries (30_encoding R345), 0 in a word that has no such field. -/
structure Word where
  format : Format
  bits : BitVec 8
  e : Nat
  deriving DecidableEq, Repr

/-- An input event as presented: its 3-bit kind code and its field `e` (30_encoding R345). Every code can be presented,
the reserved ones included. -/
structure Event where
  code : BitVec 3
  e : Nat
  deriving DecidableEq, Repr

end Sys2Proof
end

