-- ==== Sys2Proof/Config.lean ====
section
/-! DEFINITION. The implementation parameters of 00_scope R16 with the constraints of R17, the reference configuration
REF, and the fixed constants. -/

namespace Sys2Proof

/-- The `OPEN` parameters of 00_scope R16. The proof field is R17, so a configuration that breaks R17 cannot be built
(the spec: a model may refuse it). COARSE_MAX and FINE_MAX are bytes, hence at most 255. -/
structure Config where
  cntW : Nat
  latBias : Nat
  baud : Nat
  bitCycles : Nat
  tCmd : Nat
  tWin : Nat
  coarseMax : BitVec 8
  fineMax : BitVec 8
  coarseInit : BitVec 8
  fineInit : BitVec 8
  valid : (1 ≤ cntW ∧ cntW ≤ 32) ∧ latBias < 2 ^ cntW ∧ (1 ≤ baud ∧ baud < 2 ^ 32) ∧ 1 ≤ bitCycles ∧ 1 ≤ tCmd ∧
    1 ≤ tWin ∧ coarseInit ≤ coarseMax ∧ fineInit ≤ fineMax
  deriving DecidableEq, Repr

/-- The column REF of 00_scope R16. It is the spec's reference configuration, not the hardware's values
(assumption log 1). -/
def Config.ref : Config where
  cntW := 16
  latBias := 5
  baud := 4800
  bitCycles := 3333
  tCmd := 40000
  tWin := 133320
  coarseMax := 3
  fineMax := 31
  coarseInit := 1
  fineInit := 16
  valid := by decide

/-- N_SAMPLES (00_scope R16): slots of the SampleWindow, edges of a complete window. -/
def nSamples : Nat := 10

/-- N_DISCARD (00_scope R16): leading samples the estimator discards. -/
def nDiscard : Nat := 1

/-- N_DUR (00_scope R16): durations averaged. -/
def nDur : Nat := nSamples - 1 - nDiscard

/-- THRESH (00_scope R16): the fine-search acceptance threshold, one BAUD. -/
def Config.thresh (c : Config) : Nat := c.baud

end Sys2Proof
end

