-- ==== Sys2Proof/Syntax.lean ====
section
/-! DEFINITION. The instructions of the block: one constructor per mnemonic of spec/opcode_table.json, in the table's
order. CFG_INVALID, which has a row for each of the counts 6 to 10, carries its count. -/

namespace Sys2Proof

/-- A search direction (10_state R126): 0 DOWN, 1 UP. It is bit 0 of an adjustment or boundary status byte
(30_encoding R321). -/
inductive Dir where
  | down
  | up
  deriving DecidableEq, Repr

/-- The rows of spec/opcode_table.json. -/
inductive Instr where
  /-- CFG_SHIFT1, command count 1 (43_configure R701). -/
  | cfgShift1
  /-- CFG_SHIFT0, command count 2 (43_configure R702). -/
  | cfgShift0
  /-- CFG_SURVEY, command count 3 (43_configure R703). -/
  | cfgSurvey
  /-- CFG_RESET, command count 4 (43_configure R704). -/
  | cfgReset
  /-- CFG_NOP, command count 5 (43_configure R705). -/
  | cfgNop
  /-- CFG_INVALID, command counts 6 to 10 (43_configure R706). -/
  | cfgInvalid (c : BitVec 4)
  /-- CAP_OPEN: the opening edge, a falling edge; its field e is carried and ignored (41_capture R504, R501). -/
  | capOpen (e : Nat)
  /-- CAP_NEXT_F: a later falling edge (41_capture R505). -/
  | capNextF (e : Nat)
  /-- CAP_NEXT_R: a rising edge (41_capture R505). -/
  | capNextR (e : Nat)
  /-- CAP_EXPIRE: the window timer reached its limit (41_capture R509). -/
  | capExpire
  /-- RESET: `rst` asserted (70_reset_and_hazards R1000). -/
  | reset
  /-- PROC_CONFIGURE (43_configure R700). -/
  | procConfigure
  /-- PROC_SURVEY (44_survey R800). -/
  | procSurvey
  /-- TX_SEND (40_transport R401). -/
  | txSend
  /-- TX_DONE (40_transport R405). -/
  | txDone
  /-- EXACT_HIT (44_survey R802). -/
  | exactHit
  /-- COARSE_MOVE in a direction (44_survey R806). -/
  | coarseMove (d : Dir)
  /-- COARSE_BOUNDARY in a direction (44_survey R805). -/
  | coarseBoundary (d : Dir)
  /-- COARSE_BRACKET, the direction that the fine search takes (44_survey R804). -/
  | coarseBracket (d : Dir)
  /-- FINE_ROLLBACK (44_survey R808). -/
  | fineRollback
  /-- FINE_CROSS (44_survey R809). -/
  | fineCross
  /-- FINE_CONTINUE in a direction, away from the boundary (44_survey R810). -/
  | fineContinue (d : Dir)
  /-- FINE_BOUNDARY in a direction (44_survey R811). -/
  | fineBoundary (d : Dir)
  /-- SURVEY_TIMEOUT: the error WindowTimeout (60_exceptions R911). -/
  | surveyTimeout
  /-- ACK1, 0xA1 (30_encoding R320). -/
  | ack1
  /-- ACK2, 0xA2 (30_encoding R320). -/
  | ack2
  /-- ACK3, 0xA3 (30_encoding R320). -/
  | ack3
  /-- ACK4, 0xA4 (30_encoding R320). -/
  | ack4
  /-- ACK5, 0xA5 (30_encoding R320). -/
  | ack5
  /-- ERROR, 0xEE (30_encoding R320). -/
  | error
  /-- CDEC, 0xC0 (30_encoding R320). -/
  | cdec
  /-- CINC, 0xC1 (30_encoding R320). -/
  | cinc
  /-- FDEC, 0xF0 (30_encoding R320). -/
  | fdec
  /-- FINC, 0xF1 (30_encoding R320). -/
  | finc
  /-- MIN, 0xD0 (30_encoding R320). -/
  | min
  /-- MAX, 0xD1 (30_encoding R320). -/
  | max
  /-- FINISH, 0xD2 (30_encoding R320). -/
  | finish
  deriving DecidableEq, Repr

end Sys2Proof
end

