-- ==== Sys2Proof/WellFormed.lean ====
section
/-! DEFINITION. Which terms of Instr are instructions of the block: the only operand with a bound is the count of
CFG_INVALID. -/

namespace Sys2Proof

/-- An instruction of the block. CFG_INVALID is a count of 6 to 10 (30_encoding R311): 1 to 5 are other commands, 0 and
11 to 15 are never decoded (30_encoding R312). -/
def Instr.wf : Instr → Bool
  | .cfgInvalid c => decide (6 ≤ c.toNat ∧ c.toNat ≤ 10)
  | .cfgShift1 => true
  | .cfgShift0 => true
  | .cfgSurvey => true
  | .cfgReset => true
  | .cfgNop => true
  | .capOpen _ => true
  | .capNextF _ => true
  | .capNextR _ => true
  | .capExpire => true
  | .reset => true
  | .procConfigure => true
  | .procSurvey => true
  | .txSend => true
  | .txDone => true
  | .exactHit => true
  | .coarseMove _ => true
  | .coarseBoundary _ => true
  | .coarseBracket _ => true
  | .fineRollback => true
  | .fineCross => true
  | .fineContinue _ => true
  | .fineBoundary _ => true
  | .surveyTimeout => true
  | .ack1 => true
  | .ack2 => true
  | .ack3 => true
  | .ack4 => true
  | .ack5 => true
  | .error => true
  | .cdec => true
  | .cinc => true
  | .fdec => true
  | .finc => true
  | .min => true
  | .max => true
  | .finish => true

end Sys2Proof
end

