-- ==== Sys2Proof/Decode.lean ====
section
/-! DEFINITION. The decoder, total on every word of every format and rejecting by name, and after it the encoder,
written from the same tables: 30_encoding R311, R320, R345, R346. Rows that share a word are told apart by the table's
"condition" column, which the decoder takes as a Ctx. -/

namespace Sys2Proof

/-- Why a word is no instruction. -/
inductive Reject where
  /-- A command count of 0 or 11 to 15, which is never decoded (30_encoding R312). Safe: the block cannot form it. -/
  | noSuchCount (c : Nat)
  /-- A reserved event code 0b011, 0b101, 0b110 or 0b111: no such event exists (30_encoding R345). Safe. -/
  | reservedEvent (code : Nat)
  /-- A step selector that selects no step (30_encoding R346): SEQ = WAIT, SEQ = 3, MODE = 3, or SEQ = PROC with
  MODE = FINISHED, which is unreachable. Safe. -/
  | noSuchStep (selector : Nat)
  /-- A byte that is the status byte of no outcome (30_encoding R320). Safe. -/
  | noSuchOutcome (b : Byte)
  /-- A byte outside the table of replies (30_encoding R320, R323). Safe. -/
  | noSuchReply (b : Byte)
  /-- A field e in a word that has none (30_encoding R345). Safe. -/
  | strayField
  deriving DecidableEq, Repr

/-- The facts of the state that tell apart rows which share a word (the "condition" column of opcode_table.json). -/
structure Ctx where
  /-- OPEN = 1: an edge event is a CAP_NEXT and not a CAP_OPEN. -/
  winOpen : Bool
  /-- TXQ empty: the transmitter's step is TX_DONE and not TX_SEND. -/
  txqEmpty : Bool
  /-- ERR = 0: a FINISH outcome is EXACT_HIT. -/
  errZero : Bool
  /-- PHASE = FINE_SEARCH. -/
  fine : Bool
  /-- |ERR| > |PRIOR_ERR|: a FINISH outcome with ERR ≠ 0 is FINE_ROLLBACK and not FINE_CROSS (44_survey R807). -/
  worse : Bool
  deriving DecidableEq, Repr

/-- CMD_COUNT (30_encoding R311). -/
def decodeCount (c : Nat) : Except Reject Instr :=
  match c with
  | 1 => .ok .cfgShift1
  | 2 => .ok .cfgShift0
  | 3 => .ok .cfgSurvey
  | 4 => .ok .cfgReset
  | 5 => .ok .cfgNop
  | n => if 6 ≤ n ∧ n ≤ 10 then .ok (.cfgInvalid (BitVec.ofNat 4 n)) else .error (.noSuchCount n)

/-- EVENT (30_encoding R345). EDGE_F is CAP_OPEN or CAP_NEXT_F by the register OPEN. -/
def decodeEvent (k : Ctx) (code e : Nat) : Except Reject Instr :=
  match code with
  | 0 => if k.winOpen then .ok (.capNextF e) else .ok (.capOpen e)
  | 1 => .ok (.capNextR e)
  | 2 => if e = 0 then .ok .capExpire else .error .strayField
  | 4 => if e = 0 then .ok .reset else .error .strayField
  | n => .error (.reservedEvent n)

/-- STEP (30_encoding R346). The two transmitter rows have the mask 0b1100 and any of the three modes. -/
def decodeStep (k : Ctx) (selector : Nat) : Except Reject Instr :=
  match selector with
  | 4 => .ok .procConfigure
  | 5 => .ok .procSurvey
  | 8 => if k.txqEmpty then .ok .txDone else .ok .txSend
  | 9 => if k.txqEmpty then .ok .txDone else .ok .txSend
  | 10 => if k.txqEmpty then .ok .txDone else .ok .txSend
  | n => .error (.noSuchStep n)

/-- The direction in bit 0 of a status byte (30_encoding R321). -/
def dirOfBit (b : Byte) : Dir := if b.getLsbD 0 then .up else .down

/-- SURVEY_OUTCOME (opcode_table.json): the outcome whose word is the byte b. -/
def decodeOutcome (k : Ctx) (b : Byte) : Except Reject Instr :=
  match b with
  | 0xD2#8 => if k.errZero then .ok .exactHit else if k.worse then .ok .fineRollback else .ok .fineCross
  | 0xEE#8 => .ok .surveyTimeout
  | b =>
    if b &&& 0xFE#8 = 0xC0#8 then .ok (.coarseMove (dirOfBit b))
    else if b &&& 0xFE#8 = 0xD0#8 then
      if k.fine then .ok (.fineBoundary (dirOfBit b)) else .ok (.coarseBoundary (dirOfBit b))
    else if b &&& 0xFE#8 = 0xF0#8 then
      if k.fine then .ok (.fineContinue (dirOfBit b)) else .ok (.coarseBracket (dirOfBit b))
    else .error (.noSuchOutcome b)

/-- REPLY (30_encoding R320). -/
def decodeReply (b : Byte) : Except Reject Instr :=
  match b with
  | 0xA1#8 => .ok .ack1
  | 0xA2#8 => .ok .ack2
  | 0xA3#8 => .ok .ack3
  | 0xA4#8 => .ok .ack4
  | 0xA5#8 => .ok .ack5
  | 0xEE#8 => .ok .error
  | 0xC0#8 => .ok .cdec
  | 0xC1#8 => .ok .cinc
  | 0xF0#8 => .ok .fdec
  | 0xF1#8 => .ok .finc
  | 0xD0#8 => .ok .min
  | 0xD1#8 => .ok .max
  | 0xD2#8 => .ok .finish
  | b => .error (.noSuchReply b)

/-- The decoder. Only the event format has the field e. -/
def decode (k : Ctx) (w : Word) : Except Reject Instr :=
  match w.format with
  | .event => decodeEvent k w.bits.toNat w.e
  | .cmdCount => if w.e = 0 then decodeCount w.bits.toNat else .error .strayField
  | .step => if w.e = 0 then decodeStep k w.bits.toNat else .error .strayField
  | .surveyOutcome => if w.e = 0 then decodeOutcome k w.bits else .error .strayField
  | .reply => if w.e = 0 then decodeReply w.bits else .error .strayField

/-- Bit 0 of a directed status byte (30_encoding R321): 1 UP, 0 DOWN. -/
def Dir.bit : Dir → BitVec 8
  | .down => 0
  | .up => 1

/-- The encoder: the word of an instruction, from opcode_table.json's "match" values. The transmitter's rows leave the
MODE bits free (mask 0b1100): the word given here has them 0. -/
def encode : Instr → Word
  | .cfgShift1 => ⟨.cmdCount, 1, 0⟩
  | .cfgShift0 => ⟨.cmdCount, 2, 0⟩
  | .cfgSurvey => ⟨.cmdCount, 3, 0⟩
  | .cfgReset => ⟨.cmdCount, 4, 0⟩
  | .cfgNop => ⟨.cmdCount, 5, 0⟩
  | .cfgInvalid c => ⟨.cmdCount, c.setWidth 8, 0⟩
  | .capOpen e => ⟨.event, 0, e⟩
  | .capNextF e => ⟨.event, 0, e⟩
  | .capNextR e => ⟨.event, 1, e⟩
  | .capExpire => ⟨.event, 2, 0⟩
  | .reset => ⟨.event, 4, 0⟩
  | .procConfigure => ⟨.step, 4, 0⟩
  | .procSurvey => ⟨.step, 5, 0⟩
  | .txSend => ⟨.step, 8, 0⟩
  | .txDone => ⟨.step, 8, 0⟩
  | .exactHit => ⟨.surveyOutcome, 0xD2, 0⟩
  | .coarseMove d => ⟨.surveyOutcome, 0xC0 ||| d.bit, 0⟩
  | .coarseBoundary d => ⟨.surveyOutcome, 0xD0 ||| d.bit, 0⟩
  | .coarseBracket d => ⟨.surveyOutcome, 0xF0 ||| d.bit, 0⟩
  | .fineRollback => ⟨.surveyOutcome, 0xD2, 0⟩
  | .fineCross => ⟨.surveyOutcome, 0xD2, 0⟩
  | .fineContinue d => ⟨.surveyOutcome, 0xF0 ||| d.bit, 0⟩
  | .fineBoundary d => ⟨.surveyOutcome, 0xD0 ||| d.bit, 0⟩
  | .surveyTimeout => ⟨.surveyOutcome, 0xEE, 0⟩
  | .ack1 => ⟨.reply, 0xA1, 0⟩
  | .ack2 => ⟨.reply, 0xA2, 0⟩
  | .ack3 => ⟨.reply, 0xA3, 0⟩
  | .ack4 => ⟨.reply, 0xA4, 0⟩
  | .ack5 => ⟨.reply, 0xA5, 0⟩
  | .error => ⟨.reply, 0xEE, 0⟩
  | .cdec => ⟨.reply, 0xC0, 0⟩
  | .cinc => ⟨.reply, 0xC1, 0⟩
  | .fdec => ⟨.reply, 0xF0, 0⟩
  | .finc => ⟨.reply, 0xF1, 0⟩
  | .min => ⟨.reply, 0xD0, 0⟩
  | .max => ⟨.reply, 0xD1, 0⟩
  | .finish => ⟨.reply, 0xD2, 0⟩

/-- The facts under which an instruction is the one its word stands for: the "condition" column of opcode_table.json, as
far as it tells rows of one word apart. -/
def Instr.admits (i : Instr) (k : Ctx) : Bool :=
  match i with
  | .capOpen _ => !k.winOpen
  | .capNextF _ => k.winOpen
  | .txSend => !k.txqEmpty
  | .txDone => k.txqEmpty
  | .exactHit => k.errZero
  | .fineRollback => !k.errZero && k.worse
  | .fineCross => !k.errZero && !k.worse
  | .coarseBoundary _ => !k.fine
  | .coarseBracket _ => !k.fine
  | .fineContinue _ => k.fine
  | .fineBoundary _ => k.fine
  | .cfgShift1 => true
  | .cfgShift0 => true
  | .cfgSurvey => true
  | .cfgReset => true
  | .cfgNop => true
  | .cfgInvalid _ => true
  | .capNextR _ => true
  | .capExpire => true
  | .reset => true
  | .procConfigure => true
  | .procSurvey => true
  | .coarseMove _ => true
  | .surveyTimeout => true
  | .ack1 => true
  | .ack2 => true
  | .ack3 => true
  | .ack4 => true
  | .ack5 => true
  | .error => true
  | .cdec => true
  | .cinc => true
  | .fdec => true
  | .finc => true
  | .min => true
  | .max => true
  | .finish => true

/-- The conditions a bare table word is read under: no window open, bytes queued, ERR = 0, coarse search. -/
def Ctx.bare : Ctx where
  winOpen := false
  txqEmpty := false
  errZero := true
  fine := false
  worse := false

/-- The instruction of the table's word w, read as the FIRST row of opcode_table.json that has it: the formats in the
table's order, rows of one word by their order in the table. The table's words alone do not say their format, so rows
that share a word with an earlier row are not read here (assumption log 13). -/
def decodeTableWord (nbits w : Nat) : Option Instr :=
  if w < 2 ^ nbits ∧ w < 256 then
    let read (f : Format) : Option Instr := (decode Ctx.bare ⟨f, BitVec.ofNat 8 w, 0⟩).toOption
    read .cmdCount <|> read .event <|> read .step <|> read .surveyOutcome <|> read .reply
  else none

end Sys2Proof
end

