-- ==== Sys2Proof/Machine/State.lean ====
section
/-! DEFINITION. The state of the block as plain data (10_state R100, R101, 20_memory R201, R210), the reasons a step can
stop, and the state after reset. -/

namespace Sys2Proof.Machine

/-- MODE (10_state R120). The encoding 3 is reserved and never written, so it has no constructor. -/
inductive Mode where
  | configure
  | survey
  | finished
  deriving DecidableEq, Repr

/-- SEQ, the sequencer state and the block's program counter (10_state R121). The encoding 3 is reserved and never
written, so it has no constructor. -/
inductive Seq where
  | wait
  | proc
  | tx
  deriving DecidableEq, Repr

/-- PHASE (10_state R125). -/
inductive Phase where
  | coarse
  | fine
  deriving DecidableEq, Repr

/-- LAST_ACTION (10_state R128). The encodings 5 to 7 are reserved and never written. -/
inductive Action where
  | none
  | cinc
  | cdec
  | finc
  | fdec
  deriving DecidableEq, Repr

/-- EXP_POL, and the polarity of an edge (10_state R138). -/
inductive Polarity where
  | falling
  | rising
  deriving DecidableEq, Repr

/-- CLOSE, why a window closed (10_state R141). -/
inductive Close where
  | complete
  | expired
  deriving DecidableEq, Repr

/-- The SampleWindow as a list of (slot index, value) pairs in one canonical form: indices strictly rising, no value equal
to what an unlisted slot reads as (assumption log 5). -/
abbrev Window := List (Nat × Count)

/-- The state of the block. The fields above `sample` are the registers x[0] to x[23] of 10_state R101, in that order;
the last three are the model's own (assumption log 1, 2, 3). -/
structure State where
  /-- MODE, x[0]. -/
  mode : Mode
  /-- SEQ, x[1]. -/
  seq : Seq
  /-- TARGET, x[2]. -/
  target : BitVec 32
  /-- COARSE, x[3]. -/
  coarse : BitVec 8
  /-- FINE, x[4]. -/
  fine : BitVec 8
  /-- PHASE, x[5]. -/
  phase : Phase
  /-- DIR, x[6]. -/
  dir : Dir
  /-- HAVE_PREV, x[7]. -/
  havePrev : Bool
  /-- LAST_ACTION, x[8]. -/
  lastAction : Action
  /-- PRIOR_FREQ, x[9]. -/
  priorFreq : BitVec 32
  /-- PRIOR_ERR, x[10], two's complement. -/
  priorErr : BitVec 33
  /-- PRIOR_VAR, x[11]. -/
  priorVar : BitVec 32
  /-- EST_AVG, x[12]. -/
  estAvg : Count
  /-- EST_FREQ, x[13]. -/
  estFreq : BitVec 32
  /-- EST_VAR10, x[14]. -/
  estVar10 : BitVec 32
  /-- ARMED, x[15]. -/
  armed : Bool
  /-- OPEN, x[16]. -/
  winOpen : Bool
  /-- EDGE_CNT, x[17]. -/
  edgeCnt : BitVec 4
  /-- EXP_POL, x[18]. -/
  expPol : Polarity
  /-- CNT, x[19]. -/
  cnt : Count
  /-- ELAPSED, x[20]. -/
  elapsed : Nat
  /-- CLOSE, x[21]. -/
  closeCause : Close
  /-- READY, x[22]. -/
  ready : Bool
  /-- TX_LINE, x[23]: true is high. -/
  txLine : Bool
  /-- SAMPLE[0..9] (20_memory R201). -/
  sample : Window
  /-- TXQ, oldest byte first (20_memory R210). -/
  txq : List Byte
  /-- The parameters of 00_scope R16: an argument of the model, written by no step. -/
  cfg : Config
  /-- What the environment presents from here on: one list of events for each instant. An empty list is an instant at
  which it presents nothing. -/
  input : List (List Event)
  /-- The bytes output on tx so far, oldest first (40_transport R401). -/
  sent : List Byte
  deriving DecidableEq, Repr

/-- Why the machine stops with a fault: the one reason, met from no legal state (Sys2Proof.Machine.Legal). -/
inductive Fault where
  /-- An access to a slot index of 10 or more, which does not exist (00_scope R33, 20_memory R205). Raised by memRead and
  memWrite. Safe. -/
  | noSuchSlot (i : Nat)
  deriving DecidableEq, Repr

/-- Why an instruction has no step in a state. -/
inductive Refusal where
  /-- An instruction without a meaning yet; raised only by exec's arms. Safe. -/
  | notModelled (mnemonic : String)
  /-- The word presented or formed is no instruction; raised by fetch and PROC_CONFIGURE (30_encoding R345, R346, R312).
  Safe. -/
  | rejected (r : Reject)
  /-- CAP_OPEN with a window open, or CAP_NEXT with none: the condition of the other row; raised by the capture meanings
  (opcode_table.json). Safe. -/
  | wrongWindow
  /-- An edge that would be accepted with e ≤ ELAPSED has no step: the environment does not deliver it; raised by
  CAP_NEXT_F and CAP_NEXT_R (41_capture R503). Safe. -/
  | edgeNotAfterLast
  /-- An edge that would be accepted with e ≥ LIMIT has no step: the environment delivers EXPIRE first; raised by
  CAP_NEXT_F and CAP_NEXT_R (41_capture R503). Safe. -/
  | edgePastLimit
  /-- SEQ = WAIT in MODE = FINISHED, which is unreachable: R508 gives no LIMIT; raised by CAP_NEXT_F and CAP_NEXT_R.
  Safe. -/
  | noTimerLimit
  /-- EXPIRE while no window timer runs has no step; raised by CAP_EXPIRE (41_capture R509, 60_exceptions R916). Safe. -/
  | expireWithoutWindow
  /-- A PROC or TX step outside its SEQ, MODE and queue condition; raised by the PROC and TX meanings (30_encoding R346).
  Safe. -/
  | stepNotEnabled
  /-- A configure command outside a PROC step in CONFIGURE; raised by the CFG meanings (43_configure R700). Safe. -/
  | notConfiguring
  /-- A SURVEY outcome in a state in which PROC_SURVEY selects another; raised by the outcome meanings (44_survey R800).
  Safe. -/
  | notSelected
  /-- A reply byte outside the PROC step of a mode that emits it; raised by the reply meanings (20_memory R210,
  30_encoding R320). Safe. -/
  | notReplying
  deriving DecidableEq, Repr

/-- The state after power-on under the parameters c: the reset column of 10_state R101, TXQ empty (20_memory R210), and
the slots at the given window, which stands for the unspecified value that each holds (10_state R152,
70_reset_and_hazards R1004; assumption log 5). -/
def State.resetWith (c : Config) (slots : Window) : State where
  mode := .configure
  seq := .wait
  target := 0
  coarse := c.coarseInit
  fine := c.fineInit
  phase := .coarse
  dir := .down
  havePrev := false
  lastAction := .none
  priorFreq := 0
  priorErr := 0
  priorVar := 0
  estAvg := 0
  estFreq := 0
  estVar10 := 0
  armed := true
  winOpen := false
  edgeCnt := 0
  expPol := .falling
  cnt := 0
  elapsed := 0
  closeCause := .complete
  ready := false
  txLine := true
  sample := slots
  txq := []
  cfg := c
  input := []
  sent := []

/-- The state after power-on reset in the reference configuration, with nothing listed in the SampleWindow, nothing
presented and nothing sent (assumption log 1, 2, 3, 5). -/
def State.reset : State := State.resetWith Config.ref []

end Sys2Proof.Machine
end

