-- ==== Sys2Proof/Machine/Operands.lean ====
section
/-! DEFINITION. The narrowing arithmetic of 00_scope R31, the operands of every rule (LIMIT, ERR, CUR, PRI, durations,
trailer bytes, reply bytes), the ports, and the numbered view x[i] of the register file (00_scope R32, 10_state R101). -/

namespace Sys2Proof.Machine

/-- trunc_N (00_scope R31): v mod 2^N, in [0, 2^N). -/
def trunc (n : Nat) (v : Int) : Nat := (v % ((2 ^ n : Nat) : Int)).toNat

/-- sat_N (00_scope R31): the least of v and 2^N − 1. -/
def sat (n v : Nat) : Nat := if v ≤ 2 ^ n - 1 then v else 2 ^ n - 1

/-- zext_N (00_scope R31): an unsigned value widened with zeros. -/
def zext (n : Nat) {m : Nat} (v : BitVec m) : BitVec n := v.zeroExtend n

/-- sext_N (00_scope R31): a signed value widened with copies of its sign bit. -/
def sext (n : Nat) {m : Nat} (v : BitVec m) : BitVec n := v.signExtend n

/-- dir (00_scope R31): UP for a negative error, DOWN for a positive one, not defined for 0. -/
def dirOf (e : Int) : Option Dir := if e < 0 then some .up else if 0 < e then some .down else none

/-- trunc_CNT_W as a counter value. -/
def truncCount (c : Config) (v : Int) : Count := BitVec.ofNat 32 (trunc c.cntW v)

/-- LIMIT of the window timer (41_capture R508): T_CMD in CONFIGURE, T_WIN in SURVEY; in FINISHED no window is armed. -/
def limit (c : Config) : Mode → Option Nat
  | .configure => some c.tCmd
  | .survey => some c.tWin
  | .finished => none

/-- ERR (44_survey R801): EST_FREQ − TARGET, exact. -/
def err (s : State) : Int := (s.estFreq.toNat : Int) - (s.target.toNat : Int)

/-- CUR (44_survey, opening): frequency and variance of the window just measured. -/
def cur (s : State) : BitVec 32 × BitVec 32 := (s.estFreq, s.estVar10)

/-- PRI (44_survey, opening): frequency and variance of the prior result. -/
def pri (s : State) : BitVec 32 × BitVec 32 := (s.priorFreq, s.priorVar)

/-- The durations between consecutive samples (42_estimator R601): modular differences of CNT_W bits. -/
def durations (w : Nat) : List Nat → List Nat
  | a :: b :: rest => trunc w ((b : Int) - (a : Int)) :: durations w (b :: rest)
  | _ => []

/-- AVG (42_estimator R602): the floor of the mean. -/
def average (ds : List Nat) : Nat := ds.sum / nDur

/-- FREQ (42_estimator R603). -/
def frequency (c : Config) (ds : List Nat) : Nat := sat 32 (average ds * c.baud)

/-- (d − AVG)^2 (42_estimator R604), the difference signed. -/
def squaredDeviation (avg d : Nat) : Nat := ((d : Int) - (avg : Int)).natAbs ^ 2

/-- Q (42_estimator R604). -/
def deviationSum (ds : List Nat) : Nat := (ds.map (squaredDeviation (average ds))).sum

/-- VAR10 (42_estimator R604). -/
def variance10 (ds : List Nat) : Nat := sat 32 (10 * deviationSum ds / nDur)

/-- The slots whose timestamps the estimator keeps (42_estimator R601): all but the N_DISCARD leading ones. -/
def keptSlots : List Nat := [1, 2, 3, 4, 5, 6, 7, 8, 9]

/-- The reply bytes (30_encoding R320). -/
inductive Reply where
  | ack1
  | ack2
  | ack3
  | ack4
  | ack5
  | error
  | cdec
  | cinc
  | fdec
  | finc
  | min
  | max
  | finish
  deriving DecidableEq, Repr

/-- The byte of a reply (30_encoding R320). -/
def replyByte : Reply → Byte
  | .ack1 => 0xA1
  | .ack2 => 0xA2
  | .ack3 => 0xA3
  | .ack4 => 0xA4
  | .ack5 => 0xA5
  | .error => 0xEE
  | .cdec => 0xC0
  | .cinc => 0xC1
  | .fdec => 0xF0
  | .finc => 0xF1
  | .min => 0xD0
  | .max => 0xD1
  | .finish => 0xD2

/-- The classes of reply bytes (30_encoding R320, R321). -/
inductive ReplyClass where
  | ack
  | error
  | coarseAdjust
  | fineAdjust
  | terminal
  deriving DecidableEq, Repr

/-- The class of a reply (30_encoding R320). -/
def replyClass : Reply → ReplyClass
  | .ack1 => .ack
  | .ack2 => .ack
  | .ack3 => .ack
  | .ack4 => .ack
  | .ack5 => .ack
  | .error => .error
  | .cdec => .coarseAdjust
  | .cinc => .coarseAdjust
  | .fdec => .fineAdjust
  | .finc => .fineAdjust
  | .min => .terminal
  | .max => .terminal
  | .finish => .terminal

/-- The class that bits [7:4] of a byte name (30_encoding R321), none for any other value of them. -/
def classOfByte (b : Byte) : Option ReplyClass :=
  match b.extractLsb' 4 4 with
  | 0xA#4 => some .ack
  | 0xE#4 => some .error
  | 0xC#4 => some .coarseAdjust
  | 0xF#4 => some .fineAdjust
  | 0xD#4 => some .terminal
  | _ => none

/-- The modes whose PROC step emits a reply (30_encoding R320, column "emitted by"). -/
def replyModes (r : Reply) : List Mode :=
  match replyClass r with
  | .ack => [.configure]
  | .error => [.configure, .survey]
  | .coarseAdjust => [.survey]
  | .fineAdjust => [.survey]
  | .terminal => [.survey]

/-- The boundary reply of a direction (44_survey R805, R811): MAX for UP, MIN for DOWN. -/
def boundaryReply : Dir → Reply
  | .up => .max
  | .down => .min

/-- The four bytes of a u32, least significant first (20_memory R215). -/
def littleEndian (v : BitVec 32) : List Byte :=
  [v.extractLsb' 0 8, v.extractLsb' 8 8, v.extractLsb' 16 8, v.extractLsb' 24 8]

/-- The trailer of a result (F, V) with the calibration bytes FINE and COARSE (30_encoding R330). -/
def trailer (result : BitVec 32 × BitVec 32) (fine coarse : Byte) : List Byte :=
  littleEndian result.1 ++ littleEndian result.2 ++ [fine, coarse]

/-- MODE as a number (10_state R120). -/
def Mode.code : Mode → BitVec 2
  | .configure => 0
  | .survey => 1
  | .finished => 2

/-- SEQ as a number (10_state R121). -/
def Seq.code : Seq → BitVec 2
  | .wait => 0
  | .proc => 1
  | .tx => 2

/-- The step selector, SEQ above MODE (30_encoding R346). -/
def selector (s : State) : BitVec 4 := s.seq.code ++ s.mode.code

/-- The port tx (10_state R102). -/
def portTx (s : State) : Bool := s.txLine

/-- The port dco_coarse follows COARSE (10_state R102, R113). -/
def portDcoCoarse (s : State) : Byte := s.coarse

/-- The port dco_fine follows FINE (10_state R102, R113). -/
def portDcoFine (s : State) : Byte := s.fine

/-- The registers of 10_state R101, in the order of their numbers. -/
inductive Reg where
  | mode
  | seq
  | target
  | coarse
  | fine
  | phase
  | dir
  | havePrev
  | lastAction
  | priorFreq
  | priorErr
  | priorVar
  | estAvg
  | estFreq
  | estVar10
  | armed
  | winOpen
  | edgeCnt
  | expPol
  | cnt
  | elapsed
  | closeCause
  | ready
  | txLine
  deriving DecidableEq, Repr

/-- The register of each number i of x[i] (10_state R101). -/
def regFile : List Reg :=
  [.mode, .seq, .target, .coarse, .fine, .phase, .dir, .havePrev] ++
  [.lastAction, .priorFreq, .priorErr, .priorVar, .estAvg, .estFreq, .estVar10, .armed] ++
  [.winOpen, .edgeCnt, .expPol, .cnt, .elapsed, .closeCause, .ready, .txLine]

/-- A one-bit register's value. -/
def bitValue (b : Bool) : Int := if b then 1 else 0

/-- The value of a register as 10_state R101 numbers it. -/
def readReg (s : State) : Reg → Int
  | .mode => match s.mode with | .configure => 0 | .survey => 1 | .finished => 2
  | .seq => match s.seq with | .wait => 0 | .proc => 1 | .tx => 2
  | .target => s.target.toNat
  | .coarse => s.coarse.toNat
  | .fine => s.fine.toNat
  | .phase => match s.phase with | .coarse => 0 | .fine => 1
  | .dir => match s.dir with | .down => 0 | .up => 1
  | .havePrev => bitValue s.havePrev
  | .lastAction => match s.lastAction with | .none => 0 | .cinc => 1 | .cdec => 2 | .finc => 3 | .fdec => 4
  | .priorFreq => s.priorFreq.toNat
  | .priorErr => s.priorErr.toInt
  | .priorVar => s.priorVar.toNat
  | .estAvg => s.estAvg.toNat
  | .estFreq => s.estFreq.toNat
  | .estVar10 => s.estVar10.toNat
  | .armed => bitValue s.armed
  | .winOpen => bitValue s.winOpen
  | .edgeCnt => s.edgeCnt.toNat
  | .expPol => match s.expPol with | .falling => 0 | .rising => 1
  | .cnt => s.cnt.toNat
  | .elapsed => s.elapsed
  | .closeCause => match s.closeCause with | .complete => 0 | .expired => 1
  | .ready => bitValue s.ready
  | .txLine => bitValue s.txLine

/-- x[i] (00_scope R32): the register numbered i, none where no register has the number. -/
def readX (s : State) (i : Nat) : Option Int := (regFile[i]?).map (readReg s)

/-- The legal values of a register (10_state R101, column "legal values"). -/
def legalValue (c : Config) (r : Reg) (v : Int) : Bool :=
  match r with
  | .mode => decide (0 ≤ v ∧ v ≤ 2)
  | .seq => decide (0 ≤ v ∧ v ≤ 2)
  | .target => decide (0 ≤ v ∧ v ≤ 4294967295)
  | .coarse => decide (0 ≤ v ∧ v ≤ (c.coarseMax.toNat : Int))
  | .fine => decide (0 ≤ v ∧ v ≤ (c.fineMax.toNat : Int))
  | .phase => decide (0 ≤ v ∧ v ≤ 1)
  | .dir => decide (0 ≤ v ∧ v ≤ 1)
  | .havePrev => decide (0 ≤ v ∧ v ≤ 1)
  | .lastAction => decide (0 ≤ v ∧ v ≤ 4)
  | .priorFreq => decide (0 ≤ v ∧ v ≤ 4294967295)
  | .priorErr => decide (-4294967295 ≤ v ∧ v ≤ 4294967295)
  | .priorVar => decide (0 ≤ v ∧ v ≤ 4294967295)
  | .estAvg => decide (0 ≤ v ∧ v < ((2 ^ c.cntW : Nat) : Int))
  | .estFreq => decide (0 ≤ v ∧ v ≤ 4294967295)
  | .estVar10 => decide (0 ≤ v ∧ v ≤ 4294967295)
  | .armed => decide (0 ≤ v ∧ v ≤ 1)
  | .winOpen => decide (0 ≤ v ∧ v ≤ 1)
  | .edgeCnt => decide (0 ≤ v ∧ v ≤ 10)
  | .expPol => decide (0 ≤ v ∧ v ≤ 1)
  | .cnt => decide (0 ≤ v ∧ v < ((2 ^ c.cntW : Nat) : Int))
  | .elapsed => decide (0 ≤ v)
  | .closeCause => decide (0 ≤ v ∧ v ≤ 1)
  | .ready => decide (0 ≤ v ∧ v ≤ 1)
  | .txLine => decide (0 ≤ v ∧ v ≤ 1)

/-- A register set to a legal value (00_scope R32, 10_state R101). -/
def setReg (s : State) (r : Reg) (v : Int) : State :=
  match r with
  | .mode => { s with mode := if v = 0 then .configure else if v = 1 then .survey else .finished }
  | .seq => { s with seq := if v = 0 then .wait else if v = 1 then .proc else .tx }
  | .target => { s with target := BitVec.ofInt 32 v }
  | .coarse => { s with coarse := BitVec.ofInt 8 v }
  | .fine => { s with fine := BitVec.ofInt 8 v }
  | .phase => { s with phase := if v = 0 then .coarse else .fine }
  | .dir => { s with dir := if v = 0 then .down else .up }
  | .havePrev => { s with havePrev := decide (v = 1) }
  | .lastAction =>
    { s with lastAction := if v = 0 then .none else if v = 1 then .cinc else if v = 2 then .cdec else
        if v = 3 then .finc else .fdec }
  | .priorFreq => { s with priorFreq := BitVec.ofInt 32 v }
  | .priorErr => { s with priorErr := BitVec.ofInt 33 v }
  | .priorVar => { s with priorVar := BitVec.ofInt 32 v }
  | .estAvg => { s with estAvg := BitVec.ofInt 32 v }
  | .estFreq => { s with estFreq := BitVec.ofInt 32 v }
  | .estVar10 => { s with estVar10 := BitVec.ofInt 32 v }
  | .armed => { s with armed := decide (v = 1) }
  | .winOpen => { s with winOpen := decide (v = 1) }
  | .edgeCnt => { s with edgeCnt := BitVec.ofInt 4 v }
  | .expPol => { s with expPol := if v = 0 then .falling else .rising }
  | .cnt => { s with cnt := BitVec.ofInt 32 v }
  | .elapsed => { s with elapsed := v.toNat }
  | .closeCause => { s with closeCause := if v = 0 then .complete else .expired }
  | .ready => { s with ready := decide (v = 1) }
  | .txLine => { s with txLine := decide (v = 1) }

/-- x[i] <- v (00_scope R32). No rule writes a value outside a register's range, and no register has a number above 23:
such a write has no result. -/
def writeX (s : State) (i : Nat) (v : Int) : Option State :=
  match regFile[i]? with
  | none => none
  | some r => if legalValue s.cfg r v then some (setReg s r v) else none

end Sys2Proof.Machine
end

