-- ==== Sys2Proof/Machine/Flags.lean ====
section
/-! DEFINITION. The conditions of the rules: which edges are ignored, when an interrupt source is enabled, the fine-search
flags worse, small and crossed, the boundary tests, which SURVEY outcome a state selects, and what tells apart rows of one
table word. -/

namespace Sys2Proof.Machine

/-- An edge that leaves the whole state unchanged (41_capture R502): SEQ ≠ WAIT, ARMED = 0, or a polarity other than
EXP_POL. -/
def edgeIgnored (p : Polarity) (s : State) : Bool := s.seq != .wait || !s.armed || p != s.expPol

/-- The window timer runs, so the timer interrupt is enabled (41_capture R508, R509, 60_exceptions R901). -/
def timerRuns (s : State) : Bool := s.seq == .wait && s.armed && s.winOpen

/-- The other polarity. -/
def Polarity.flip : Polarity → Polarity
  | .falling => .rising
  | .rising => .falling

/-- EXP_POL after a captured edge (41_capture R506): inverted in SURVEY, unchanged otherwise. -/
def nextPolarity (s : State) : Polarity := if s.mode == .survey then s.expPol.flip else s.expPol

/-- PROC_CONFIGURE is the step of the state (43_configure R700). -/
def procConfigures (s : State) : Bool := s.seq == .proc && s.mode == .configure

/-- PROC_SURVEY is the step of the state (44_survey R800). -/
def procSurveys (s : State) : Bool := s.seq == .proc && s.mode == .survey

/-- A reply may be emitted: the PROC step of a mode that emits it (20_memory R210, 30_encoding R320). -/
def mayReply (r : Reply) (s : State) : Bool := s.seq == .proc && (replyModes r).contains s.mode

/-- worse (44_survey R807): |ERR| > |PRIOR_ERR|. -/
def worse (s : State) : Bool := decide (s.priorErr.toInt.natAbs < (err s).natAbs)

/-- small (44_survey R807): |PRIOR_ERR| ≤ THRESH. -/
def small (s : State) : Bool := decide (s.priorErr.toInt.natAbs ≤ s.cfg.thresh)

/-- A coarse step in the direction would pass the range (44_survey R803, R805). -/
def coarseAtEnd (d : Dir) (s : State) : Bool :=
  match d with
  | .up => s.coarse == s.cfg.coarseMax
  | .down => s.coarse == 0

/-- A fine step in the direction would pass the range (44_survey R810, R811). -/
def fineAtEnd (d : Dir) (s : State) : Bool :=
  match d with
  | .up => s.fine == s.cfg.fineMax
  | .down => s.fine == 0

/-- The outcomes of a SURVEY window (44_survey R802 to R811, 60_exceptions R911). -/
inductive SurveyOutcome where
  | exactHit
  | coarseMove (d : Dir)
  | coarseBoundary (d : Dir)
  | coarseBracket (d : Dir)
  | fineRollback
  | fineCross
  | fineContinue (d : Dir)
  | fineBoundary (d : Dir)
  | timeout
  deriving DecidableEq, Repr

/-- COARSE_STEP's choice (44_survey R803), nd = dir(ERR). -/
def coarseChoice (nd : Dir) (s : State) : SurveyOutcome :=
  if s.havePrev && nd != s.dir then .coarseBracket nd
  else if coarseAtEnd nd s then .coarseBoundary nd
  else .coarseMove nd

/-- FINE_STEP's choice (44_survey R807), nd = dir(ERR), with FINE_MOVE's boundary test (44_survey R810, R811). -/
def fineChoice (nd : Dir) (s : State) : SurveyOutcome :=
  let crossed := nd != s.dir
  if worse s && (small s || crossed) then .fineRollback
  else if crossed then .fineCross
  else if fineAtEnd s.dir s then .fineBoundary s.dir
  else .fineContinue s.dir

/-- The outcome that PROC_SURVEY selects (44_survey R800), once ESTIMATE has run on a complete window. dir(0) is not
defined, and ERR = 0 is EXACT_HIT in either phase (44_survey R802). -/
def selectOutcome (s : State) : SurveyOutcome :=
  match s.closeCause with
  | .expired => .timeout
  | .complete =>
    match dirOf (err s) with
    | none => .exactHit
    | some nd =>
      match s.phase with
      | .coarse => coarseChoice nd s
      | .fine => fineChoice nd s

/-- What tells apart the table rows of one word, read from the state (opcode_table.json, "condition"). -/
def tableCtx (s : State) : Ctx where
  winOpen := s.winOpen
  txqEmpty := s.txq.isEmpty
  errZero := decide (err s = 0)
  fine := s.phase == .fine
  worse := worse s

end Sys2Proof.Machine
end

