-- ==== Sys2Proof/Machine/Ops.lean ====
section
/-! DEFINITION. The named operations: slot reads and writes, Emit, the shared procedures of the rules, and the two error
paths of 60_exceptions, which stand where a processor's exceptions would. -/

namespace Sys2Proof.Machine

/-- What an instruction answers. -/
abbrev Result := Host.Outcome State Fault Refusal

/-- A computation that a slot access may stop, as a step's answer. -/
def orFault : Except Fault State → Result
  | .ok s => .next s
  | .error f => .fault f

/-- An instruction that has its effect where its condition holds and no step elsewhere (60_exceptions R916). -/
def onlyIf (enabled : Bool) (r : Refusal) (s : State) : Result := if enabled then .next s else .refused r

/-- What an unlisted slot reads as. DESIGN CHOICE: the spec leaves the contents at power-on open (10_state R152, assumption
log 5). -/
def Memory.unlisted : Count := 0

/-- The value of a slot: every slot holds one. -/
def Memory.read (i : Nat) : Window → Count
  | [] => Memory.unlisted
  | (j, v) :: rest => if i = j then v else Memory.read i rest

/-- A slot listed with a value in a list of slots with rising indices: the indices stay rising. -/
def Memory.insert (i : Nat) (v : Count) : Window → Window
  | [] => [(i, v)]
  | (j, u) :: rest =>
    if i = j then (i, v) :: rest else if i < j then (i, v) :: (j, u) :: rest else (j, u) :: Memory.insert i v rest

/-- A slot written: one that is written with what an unlisted slot reads as is not listed. -/
def Memory.write (i : Nat) (v : Count) (m : Window) : Window :=
  if v = Memory.unlisted then m.filter (fun p => p.1 != i) else Memory.insert i v m

/-- The indices of a list of slots are at least n and strictly rising, below N_SAMPLES; the values have w bits and are not
what an unlisted slot reads as. -/
def Memory.risingFrom (w n : Nat) : Window → Bool
  | [] => true
  | (j, v) :: rest =>
    decide (n ≤ j ∧ j < nSamples ∧ v.toNat < 2 ^ w ∧ v ≠ Memory.unlisted) && Memory.risingFrom w (j + 1) rest

/-- The canonical form of the SampleWindow (20_memory R201, R205): indices 0..9, strictly rising, values of CNT_W bits. -/
def Memory.wf (w : Nat) (m : Window) : Bool := Memory.risingFrom w 0 m

/-- MemRead(i, 1) (00_scope R33). -/
def memRead (i : Nat) (s : State) : Except Fault Count :=
  if i < nSamples then .ok (Memory.read i s.sample) else .error (.noSuchSlot i)

/-- MemWrite(i, 1, v) (00_scope R33). -/
def memWrite (i : Nat) (v : Count) (s : State) : Except Fault State :=
  if i < nSamples then .ok { s with sample := Memory.write i v s.sample } else .error (.noSuchSlot i)

/-- The values of several slots, read in order. -/
def readSlots (s : State) : List Nat → Except Fault (List Nat)
  | [] => .ok []
  | i :: is =>
    match memRead i s with
    | .error f => .error f
    | .ok v =>
      match readSlots s is with
      | .error f => .error f
      | .ok vs => .ok (v.toNat :: vs)

/-- Emit(b) (00_scope R34): append a byte to TXQ. -/
def emit (b : Byte) (s : State) : State := { s with txq := s.txq ++ [b] }

/-- ArmWindow() (40_transport R406). -/
def armWindow (s : State) : State :=
  { s with
    edgeCnt := 0
    winOpen := false
    expPol := .falling
    elapsed := 0
    closeCause := .complete
    ready := false
    armed := true
    seq := .wait }

/-- CloseWindow(cause) (41_capture R510): the wake of the sequencer. -/
def closeWindow (cause : Close) (s : State) : State :=
  { s with armed := false, closeCause := cause, ready := true, seq := .proc }

/-- InitSearch() (10_state R145). -/
def initSearch (s : State) : State :=
  { s with
    phase := .coarse
    dir := .down
    havePrev := false
    lastAction := .none
    priorFreq := 0
    priorErr := 0
    priorVar := 0 }

/-- InitCal() (10_state R146). -/
def initCal (s : State) : State := { s with coarse := s.cfg.coarseInit, fine := s.cfg.fineInit }

/-- RESET() (70_reset_and_hazards R1000). The SAMPLE slots are not written (R1004); the parameters, the environment's
events and the bytes already sent are no registers of the block. -/
def resetBlock (s : State) : State :=
  let s := { s with mode := .configure, target := 0 }
  let s := initSearch (initCal s)
  let s := { s with estAvg := 0, estFreq := 0, estVar10 := 0, cnt := 0, txq := [], txLine := true }
  armWindow s

/-- CAP_OPEN() (41_capture R504) on a state in which its edge is accepted. -/
def openWindow (s : State) : Except Fault State :=
  match memWrite 0 0 { s with cnt := 0, elapsed := 0 } with
  | .error f => .error f
  | .ok t => .ok { t with edgeCnt := 1, winOpen := true, expPol := nextPolarity s }

/-- CAP_NEXT(e) (41_capture R505) on a state in which its edge is accepted: the counter value less the latency bias goes
into the next slot, and the tenth edge closes the window (R507). -/
def captureEdge (e : Nat) (s : State) : Except Fault State :=
  let cnt := truncCount s.cfg (e : Int)
  let value := truncCount s.cfg ((cnt.toNat : Int) - (s.cfg.latBias : Int))
  match memWrite s.edgeCnt.toNat value { s with elapsed := e, cnt := cnt } with
  | .error f => .error f
  | .ok t =>
    let t := { t with edgeCnt := s.edgeCnt + 1, expPol := nextPolarity s }
    if t.edgeCnt.toNat = nSamples then .ok (closeWindow .complete t) else .ok t

/-- EST_WRITE (42_estimator R605, R609) of the durations ds. -/
def writeEstimate (ds : List Nat) (s : State) : State :=
  { s with
    estAvg := BitVec.ofNat 32 (average ds)
    estFreq := BitVec.ofNat 32 (frequency s.cfg ds)
    estVar10 := BitVec.ofNat 32 (variance10 ds) }

/-- ESTIMATE() (42_estimator R609). -/
def estimate (s : State) : Except Fault State :=
  match readSlots s keptSlots with
  | .error f => .error f
  | .ok xs => .ok (writeEstimate (durations s.cfg.cntW xs) s)

/-- Emit of a reply byte (30_encoding R320). -/
def emitReply (r : Reply) (s : State) : State := emit (replyByte r) s

/-- Emit of bytes in order (20_memory R210, 40_transport R409). -/
def emitAll (bs : List Byte) (s : State) : State := bs.foldl (fun s b => emit b s) s

/-- Terminal(t, (F, V)) (44_survey R813): the reply, the trailer of 30_encoding R330, MODE <- FINISHED. -/
def terminal (r : Reply) (result : BitVec 32 × BitVec 32) (s : State) : State :=
  { emitAll (trailer result s.fine s.coarse) (emitReply r s) with mode := .finished }

/-- ApplyInverse(a) (44_survey R812). -/
def applyInverse (a : Action) (s : State) : State :=
  match a with
  | .cinc => { s with coarse := s.coarse - 1 }
  | .cdec => { s with coarse := s.coarse + 1 }
  | .finc => { s with fine := s.fine - 1 }
  | .fdec => { s with fine := s.fine + 1 }
  | .none => s

/-- The current result becomes the prior result (44_survey R804, R810). -/
def recordPrior (s : State) : State :=
  { s with priorFreq := s.estFreq, priorErr := BitVec.ofInt 33 (err s), priorVar := s.estVar10 }

/-- A coarse step and its report (44_survey R806). -/
def stepCoarse (d : Dir) (s : State) : State :=
  match d with
  | .up => emitReply .cinc { s with coarse := s.coarse + 1, lastAction := .cinc, havePrev := true }
  | .down => emitReply .cdec { s with coarse := s.coarse - 1, lastAction := .cdec, havePrev := true }

/-- A fine step and its report (44_survey R810, the last two branches of FINE_MOVE). -/
def stepFine (d : Dir) (s : State) : State :=
  match d with
  | .up => emitReply .finc { s with fine := s.fine + 1, lastAction := .finc }
  | .down => emitReply .fdec { s with fine := s.fine - 1, lastAction := .fdec }

/-- The boundary outcome (44_survey R805, R811): MIN or MAX with the current result. -/
def reachBoundary (d : Dir) (s : State) : State := terminal (boundaryReply d) (cur s) s

/-- FINE_MOVE() (44_survey R810): boundary check, then one fine step in DIR. -/
def fineMove (s : State) : State := if fineAtEnd s.dir s then reachBoundary s.dir s else stepFine s.dir s

/-- raise InvalidCommand(c) (60_exceptions R910): the ERROR byte and nothing else; the count is not recorded. -/
def raiseInvalidCommand (_c : BitVec 4) (s : State) : State := emitReply .error s

/-- raise WindowTimeout(k) (60_exceptions R911): the ERROR byte, the search and the calibration to their initial values,
MODE <- CONFIGURE; k is not used. -/
def raiseWindowTimeout (_k : BitVec 4) (s : State) : State :=
  { initCal (initSearch (emitReply .error s)) with mode := .configure }

/-- EXACT_HIT (44_survey R802). -/
def hitExactly (s : State) : State := terminal .finish (cur s) s

/-- COARSE_MOVE with the DIR write of COARSE_STEP (44_survey R803, R806). -/
def moveCoarse (d : Dir) (s : State) : State := stepCoarse d { s with dir := d }

/-- COARSE_BOUNDARY with the DIR write of COARSE_STEP (44_survey R803, R805). -/
def endCoarse (d : Dir) (s : State) : State := reachBoundary d { s with dir := d }

/-- COARSE_BRACKET (44_survey R804). -/
def bracketCoarse (d : Dir) (s : State) : State := fineMove (recordPrior { s with phase := .fine, dir := d })

/-- FINE_ROLLBACK (44_survey R808): the trailer's calibration bytes are those after the undo. -/
def rollBackFine (s : State) : State :=
  let t := { applyInverse s.lastAction s with lastAction := .none }
  terminal .finish (pri t) t

/-- FINE_CROSS (44_survey R809). -/
def crossFine (s : State) : State := terminal .finish (cur s) s

/-- FINE_CONTINUE away from the boundary (44_survey R810). -/
def continueFine (d : Dir) (s : State) : State := stepFine d (recordPrior s)

/-- FINE_BOUNDARY reached through FINE_CONTINUE (44_survey R810, R811): the prior result is written first. -/
def endFine (d : Dir) (s : State) : State := reachBoundary d (recordPrior s)

/-- What an outcome does (44_survey R800). -/
def applyOutcome (o : SurveyOutcome) (s : State) : State :=
  match o with
  | .exactHit => hitExactly s
  | .coarseMove d => moveCoarse d s
  | .coarseBoundary d => endCoarse d s
  | .coarseBracket d => bracketCoarse d s
  | .fineRollback => rollBackFine s
  | .fineCross => crossFine s
  | .fineContinue d => continueFine d s
  | .fineBoundary d => endFine d s
  | .timeout => raiseWindowTimeout s.edgeCnt s

/-- CFG_SHIFT1 (43_configure R701). -/
def shiftInOne (s : State) : State :=
  emitReply .ack1 { s with target := BitVec.ofNat 32 (trunc 32 (2 * (s.target.toNat : Int) + 1)) }

/-- CFG_SHIFT0 (43_configure R702). -/
def shiftInZero (s : State) : State :=
  emitReply .ack2 { s with target := BitVec.ofNat 32 (trunc 32 (2 * (s.target.toNat : Int))) }

/-- CFG_SURVEY (43_configure R703). -/
def beginSurvey (s : State) : State := { initSearch (emitReply .ack3 s) with mode := .survey }

/-- CFG_RESET (43_configure R704). -/
def resetSearch (s : State) : State := emitReply .ack4 (initSearch (initCal { s with target := 0 }))

/-- CFG_NOP (43_configure R705). -/
def doNothing (s : State) : State := emitReply .ack5 s

/-- What a configure command does, by its instruction (43_configure R700); none for an instruction of another format. -/
def applyCommand (i : Instr) (s : State) : Option State :=
  match i with
  | .cfgShift1 => some (shiftInOne s)
  | .cfgShift0 => some (shiftInZero s)
  | .cfgSurvey => some (beginSurvey s)
  | .cfgReset => some (resetSearch s)
  | .cfgNop => some (doNothing s)
  | .cfgInvalid c => some (raiseInvalidCommand c s)
  | .capOpen _ | .capNextF _ | .capNextR _ | .capExpire | .reset | .procConfigure | .procSurvey | .txSend
  | .txDone | .exactHit | .coarseMove _ | .coarseBoundary _ | .coarseBracket _ | .fineRollback | .fineCross
  | .fineContinue _ | .fineBoundary _ | .surveyTimeout | .ack1 | .ack2 | .ack3 | .ack4 | .ack5 | .error
  | .cdec | .cinc | .fdec | .finc | .min | .max | .finish => none

/-- FrameLevels(b) (30_encoding R303): start 0, the data bits least significant first, stop 1. -/
def frameLevels (b : Byte) : List Bool :=
  [false, b.getLsbD 0, b.getLsbD 1, b.getLsbD 2, b.getLsbD 3, b.getLsbD 4, b.getLsbD 5, b.getLsbD 6, b.getLsbD 7, true]

/-- TX_LINE through a list of levels, one after another (40_transport R401). -/
def driveLine (levels : List Bool) (s : State) : State := levels.foldl (fun s l => { s with txLine := l }) s

/-- TX_SEND() of the byte b at the head of TXQ, `rest` its tail (40_transport R401): the frame is driven, the line is left
high, and the byte is output. -/
def sendByte (b : Byte) (rest : List Byte) (s : State) : State :=
  let s := driveLine (frameLevels b) { s with txq := rest }
  { s with txLine := true, sent := s.sent ++ [b] }

/-- TX_DONE() (40_transport R405). -/
def endResponse (s : State) : State :=
  armWindow (if s.mode = .finished then { s with mode := .configure } else s)

end Sys2Proof.Machine
end

