-- ==== Sys2Proof/Machine/Capture.lean ====
section
/-! DEFINITION. The capture unit of 41_capture: an edge that R502 ignores leaves the state as it is; an accepted edge or an expiry
the environment may not deliver (R503, R509) has no step. -/

namespace Sys2Proof.Machine

/-- CAP_OPEN (41_capture R504): a falling edge where no window is open. The field e is not used (41_capture R501). -/
def execCapOpen (_e : Nat) (s : State) : Result :=
  if edgeIgnored .falling s then .next s
  else if s.winOpen then .refused .wrongWindow
  else orFault (openWindow s)

/-- CAP_NEXT (41_capture R505) for an edge of polarity p: ignored (R502), or captured where ELAPSED < e < LIMIT (R503). -/
def nextEdge (p : Polarity) (e : Nat) (s : State) : Result :=
  if edgeIgnored p s then .next s
  else if s.winOpen then
    match limit s.cfg s.mode with
    | none => .refused .noTimerLimit
    | some l =>
      if e ≤ s.elapsed then .refused .edgeNotAfterLast
      else if l ≤ e then .refused .edgePastLimit
      else orFault (captureEdge e s)
  else .refused .wrongWindow

/-- CAP_NEXT_F (41_capture R505). -/
def execCapNextF (e : Nat) (s : State) : Result := nextEdge .falling e s

/-- CAP_NEXT_R (41_capture R505). -/
def execCapNextR (e : Nat) (s : State) : Result := nextEdge .rising e s

/-- CAP_EXPIRE (41_capture R509). -/
def execCapExpire (s : State) : Result := onlyIf (timerRuns s) .expireWithoutWindow (closeWindow .expired s)

/-- RESET (70_reset_and_hazards R1000): in any state. -/
def execReset (s : State) : Result := .next (resetBlock s)

end Sys2Proof.Machine
end

