-- ==== Sys2Proof/Machine/Configure.lean ====
section
/-! DEFINITION. The CONFIGURE commands of 43_configure: each is the body that PROC_CONFIGURE runs, enabled in the PROC step of
MODE = CONFIGURE (assumption log 6). -/

namespace Sys2Proof.Machine

/-- CFG_SHIFT1 (43_configure R701). -/
def execCfgShift1 (s : State) : Result := onlyIf (procConfigures s) .notConfiguring (shiftInOne s)

/-- CFG_SHIFT0 (43_configure R702). -/
def execCfgShift0 (s : State) : Result := onlyIf (procConfigures s) .notConfiguring (shiftInZero s)

/-- CFG_SURVEY (43_configure R703). -/
def execCfgSurvey (s : State) : Result := onlyIf (procConfigures s) .notConfiguring (beginSurvey s)

/-- CFG_RESET (43_configure R704). -/
def execCfgReset (s : State) : Result := onlyIf (procConfigures s) .notConfiguring (resetSearch s)

/-- CFG_NOP (43_configure R705): acknowledged, no other effect. -/
def execCfgNop (s : State) : Result := onlyIf (procConfigures s) .notConfiguring (doNothing s)

/-- CFG_INVALID (43_configure R706): takes the error InvalidCommand (60_exceptions R910). -/
def execCfgInvalid (c : BitVec 4) (s : State) : Result :=
  onlyIf (procConfigures s) .notConfiguring (raiseInvalidCommand c s)

end Sys2Proof.Machine
end

