-- ==== Sys2Proof/Machine/Reply.lean ====
section
/-! DEFINITION. The reply bytes of 30_encoding R320: Emit of the byte, in the PROC step of a mode that emits it; the trailer after a
terminal byte is emitted by Terminal (44_survey R813, assumption log 18). -/

namespace Sys2Proof.Machine

/-- ACK1 (30_encoding R320). -/
def execAck1 (s : State) : Result := onlyIf (mayReply .ack1 s) .notReplying (emitReply .ack1 s)

/-- ACK2 (30_encoding R320). -/
def execAck2 (s : State) : Result := onlyIf (mayReply .ack2 s) .notReplying (emitReply .ack2 s)

/-- ACK3 (30_encoding R320). -/
def execAck3 (s : State) : Result := onlyIf (mayReply .ack3 s) .notReplying (emitReply .ack3 s)

/-- ACK4 (30_encoding R320). -/
def execAck4 (s : State) : Result := onlyIf (mayReply .ack4 s) .notReplying (emitReply .ack4 s)

/-- ACK5 (30_encoding R320). -/
def execAck5 (s : State) : Result := onlyIf (mayReply .ack5 s) .notReplying (emitReply .ack5 s)

/-- ERROR (30_encoding R320). -/
def execError (s : State) : Result := onlyIf (mayReply .error s) .notReplying (emitReply .error s)

/-- CDEC (30_encoding R320). -/
def execCdec (s : State) : Result := onlyIf (mayReply .cdec s) .notReplying (emitReply .cdec s)

/-- CINC (30_encoding R320). -/
def execCinc (s : State) : Result := onlyIf (mayReply .cinc s) .notReplying (emitReply .cinc s)

/-- FDEC (30_encoding R320). -/
def execFdec (s : State) : Result := onlyIf (mayReply .fdec s) .notReplying (emitReply .fdec s)

/-- FINC (30_encoding R320). -/
def execFinc (s : State) : Result := onlyIf (mayReply .finc s) .notReplying (emitReply .finc s)

/-- MIN (30_encoding R320). -/
def execMin (s : State) : Result := onlyIf (mayReply .min s) .notReplying (emitReply .min s)

/-- MAX (30_encoding R320). -/
def execMax (s : State) : Result := onlyIf (mayReply .max s) .notReplying (emitReply .max s)

/-- FINISH (30_encoding R320). -/
def execFinish (s : State) : Result := onlyIf (mayReply .finish s) .notReplying (emitReply .finish s)

end Sys2Proof.Machine
end

