-- ==== Sys2Proof/Machine/Sequencer.lean ====
section
/-! DEFINITION. The sequencer steps PROC_CONFIGURE (43_configure R700) and PROC_SURVEY (44_survey R800): one atomic step that
runs the decoded command or the selected outcome. -/

namespace Sys2Proof.Machine

/-- PROC_CONFIGURE (43_configure R700): consume READY, decode the count, run the command, SEQ <- TX. CLOSE is not read
(43_configure R707). -/
def execProcConfigure (s : State) : Result :=
  if procConfigures s then
    match decode (tableCtx s) ⟨.cmdCount, s.edgeCnt.setWidth 8, 0⟩ with
    | .error r => .refused (.rejected r)
    | .ok i =>
      match applyCommand i { s with ready := false } with
      | none => .refused .notConfiguring
      | some t => .next { t with seq := .tx }
  else .refused .stepNotEnabled

/-- The state in which PROC_SURVEY selects its outcome (44_survey R800): READY consumed, and the Estimate of the window
where it is complete; an expired window is not estimated (42_estimator R600). -/
def measureWindow (s : State) : Except Fault State :=
  match s.closeCause with
  | .expired => .ok { s with ready := false }
  | .complete => estimate { s with ready := false }

/-- PROC_SURVEY (44_survey R800). -/
def execProcSurvey (s : State) : Result :=
  if procSurveys s then
    match measureWindow s with
    | .error f => .fault f
    | .ok t => .next { applyOutcome (selectOutcome t) t with seq := .tx }
  else .refused .stepNotEnabled

end Sys2Proof.Machine
end

