-- ==== Sys2Proof/Machine/Survey.lean ====
section
/-! DEFINITION. The outcomes of a SURVEY window (44_survey, 60_exceptions R911): each is the body that PROC_SURVEY runs after
ESTIMATE, enabled where PROC_SURVEY selects it (assumption log 6). -/

namespace Sys2Proof.Machine

/-- The outcome is the one that PROC_SURVEY selects in the state (44_survey R800). -/
def selected (o : SurveyOutcome) (s : State) : Bool := procSurveys s && selectOutcome s == o

/-- EXACT_HIT (44_survey R802). -/
def execExactHit (s : State) : Result := onlyIf (selected .exactHit s) .notSelected (hitExactly s)

/-- COARSE_MOVE (44_survey R806). -/
def execCoarseMove (d : Dir) (s : State) : Result := onlyIf (selected (.coarseMove d) s) .notSelected (moveCoarse d s)

/-- COARSE_BOUNDARY (44_survey R805). -/
def execCoarseBoundary (d : Dir) (s : State) : Result := onlyIf (selected (.coarseBoundary d) s) .notSelected (endCoarse d s)

/-- COARSE_BRACKET (44_survey R804). -/
def execCoarseBracket (d : Dir) (s : State) : Result := onlyIf (selected (.coarseBracket d) s) .notSelected (bracketCoarse d s)

/-- FINE_ROLLBACK (44_survey R808). -/
def execFineRollback (s : State) : Result := onlyIf (selected .fineRollback s) .notSelected (rollBackFine s)

/-- FINE_CROSS (44_survey R809). -/
def execFineCross (s : State) : Result := onlyIf (selected .fineCross s) .notSelected (crossFine s)

/-- FINE_CONTINUE (44_survey R810). -/
def execFineContinue (d : Dir) (s : State) : Result := onlyIf (selected (.fineContinue d) s) .notSelected (continueFine d s)

/-- FINE_BOUNDARY (44_survey R811). -/
def execFineBoundary (d : Dir) (s : State) : Result := onlyIf (selected (.fineBoundary d) s) .notSelected (endFine d s)

/-- SURVEY_TIMEOUT (60_exceptions R911): takes the error WindowTimeout. -/
def execSurveyTimeout (s : State) : Result := onlyIf (selected .timeout s) .notSelected (raiseWindowTimeout s.edgeCnt s)

end Sys2Proof.Machine
end

