-- ==== Sys2Proof/Machine/Transmit.lean ====
section
/-! DEFINITION. The transmitter of 40_transport. -/

namespace Sys2Proof.Machine

/-- TX_SEND (40_transport R401): enabled where SEQ = TX and TXQ is not empty. -/
def execTxSend (s : State) : Result :=
  match s.seq, s.txq with
  | .tx, b :: rest => .next (sendByte b rest s)
  | .tx, [] => .refused .stepNotEnabled
  | .wait, _ => .refused .stepNotEnabled
  | .proc, _ => .refused .stepNotEnabled

/-- TX_DONE (40_transport R405): enabled where SEQ = TX and TXQ is empty. -/
def execTxDone (s : State) : Result := onlyIf (s.seq == .tx && s.txq.isEmpty) .stepNotEnabled (endResponse s)

end Sys2Proof.Machine
end

