-- ==== Sys2Proof/Machine/Dispatch.lean ====
section
/-! DEFINITION. exec: one arm per instruction, each a direct call of its meaning. -/

namespace Sys2Proof.Machine

def exec (i : Instr) (s : State) : Host.Outcome State Fault Refusal :=
  match i with
  | .cfgShift1 => Sys2Proof.Machine.execCfgShift1 s
  | .cfgShift0 => Sys2Proof.Machine.execCfgShift0 s
  | .cfgSurvey => Sys2Proof.Machine.execCfgSurvey s
  | .cfgReset => Sys2Proof.Machine.execCfgReset s
  | .cfgNop => Sys2Proof.Machine.execCfgNop s
  | .cfgInvalid c => Sys2Proof.Machine.execCfgInvalid c s
  | .capOpen e => Sys2Proof.Machine.execCapOpen e s
  | .capNextF e => Sys2Proof.Machine.execCapNextF e s
  | .capNextR e => Sys2Proof.Machine.execCapNextR e s
  | .capExpire => Sys2Proof.Machine.execCapExpire s
  | .reset => Sys2Proof.Machine.execReset s
  | .procConfigure => Sys2Proof.Machine.execProcConfigure s
  | .procSurvey => Sys2Proof.Machine.execProcSurvey s
  | .txSend => Sys2Proof.Machine.execTxSend s
  | .txDone => Sys2Proof.Machine.execTxDone s
  | .exactHit => Sys2Proof.Machine.execExactHit s
  | .coarseMove d => Sys2Proof.Machine.execCoarseMove d s
  | .coarseBoundary d => Sys2Proof.Machine.execCoarseBoundary d s
  | .coarseBracket d => Sys2Proof.Machine.execCoarseBracket d s
  | .fineRollback => Sys2Proof.Machine.execFineRollback s
  | .fineCross => Sys2Proof.Machine.execFineCross s
  | .fineContinue d => Sys2Proof.Machine.execFineContinue d s
  | .fineBoundary d => Sys2Proof.Machine.execFineBoundary d s
  | .surveyTimeout => Sys2Proof.Machine.execSurveyTimeout s
  | .ack1 => Sys2Proof.Machine.execAck1 s
  | .ack2 => Sys2Proof.Machine.execAck2 s
  | .ack3 => Sys2Proof.Machine.execAck3 s
  | .ack4 => Sys2Proof.Machine.execAck4 s
  | .ack5 => Sys2Proof.Machine.execAck5 s
  | .error => Sys2Proof.Machine.execError s
  | .cdec => Sys2Proof.Machine.execCdec s
  | .cinc => Sys2Proof.Machine.execCinc s
  | .fdec => Sys2Proof.Machine.execFdec s
  | .finc => Sys2Proof.Machine.execFinc s
  | .min => Sys2Proof.Machine.execMin s
  | .max => Sys2Proof.Machine.execMax s
  | .finish => Sys2Proof.Machine.execFinish s

end Sys2Proof.Machine
end

