-- ==== Sys2Proof/Machine/Fetch.lean ====
section
/-! DEFINITION. Which instruction the block takes next (30_encoding R345, R346): an event that the environment presents,
in the order of 60_exceptions R903, else the internal step that SEQ and MODE select, else none. -/

namespace Sys2Proof.Machine

/-- What comes next: an instruction to run on a state, a wait in which nothing happens, or a word that is rejected. -/
inductive Fetched where
  | run (i : Instr) (s : State)
  | idle (s : State)
  | reject (r : Reject)
  deriving DecidableEq, Repr

/-- The word of an event (30_encoding R345). -/
def eventWord (ev : Event) : Word := ⟨.event, ev.code.setWidth 8, ev.e⟩

/-- The word of the internal step that the state selects (30_encoding R346). -/
def stepWord (s : State) : Word := ⟨.step, (selector s).setWidth 8, 0⟩

/-- A word decoded in a state, to be run on it. -/
def decodeIn (s : State) (w : Word) : Fetched :=
  match decode (tableCtx s) w with
  | .ok i => .run i s
  | .error r => .reject r

/-- A reserved event code (30_encoding R345). -/
def isReserved (ev : Event) : Bool := ev.code == 3 || ev.code == 5 || ev.code == 6 || ev.code == 7

/-- A RESET event. -/
def isReset (ev : Event) : Bool := ev.code == 4

/-- An EXPIRE event. -/
def isExpire (ev : Event) : Bool := ev.code == 2

/-- The first event of a kind, and the others. -/
def takeBy (p : Event → Bool) (now : List Event) : Option (Event × List Event) :=
  (now.find? p).map (fun ev => (ev, now.eraseP p))

/-- The event of an instant that the block takes first, and what is left of the instant (60_exceptions R903): RESET, which
discards all others, then EXPIRE, then EDGE. An instant that holds a reserved code is refused, so that code is taken
before any (assumption log 23). -/
def takeEvent (now : List Event) : Option (Event × List Event) :=
  match takeBy isReserved now with
  | some x => some x
  | none =>
    match takeBy isReset now with
    | some (ev, _) => some (ev, [])
    | none =>
      match takeBy isExpire now with
      | some x => some x
      | none => takeBy (fun _ => true) now

/-- The instants left when `rest` is left of the present one. -/
def stillToCome (rest : List Event) (later : List (List Event)) : List (List Event) :=
  match rest with
  | [] => later
  | _ :: _ => rest :: later

/-- The internal step (30_encoding R346). In SEQ = WAIT there is none: the block waits (41_capture R511). -/
def fetchInternal (s : State) : Fetched :=
  match s.seq with
  | .wait => .idle s
  | .proc => decodeIn s (stepWord s)
  | .tx => decodeIn s (stepWord s)

/-- What the block does next. -/
def fetch (s : State) : Fetched :=
  match s.input with
  | [] => fetchInternal s
  | now :: later =>
    match takeEvent now with
    | none => fetchInternal { s with input := later }
    | some (ev, rest) => decodeIn { s with input := stillToCome rest later } (eventWord ev)

/-- One step of the machine: run what comes next. -/
def advance (s : State) : Result :=
  match fetch s with
  | .run i t => exec i t
  | .idle t => .next t
  | .reject r => .refused (.rejected r)

end Sys2Proof.Machine
end

