-- ==== Sys2Proof/Machine/Frame.lean ====
section
/-! DEFINITION. The encodings of 30_encoding that surround the block: the frame as levels and as line edges, the command
count of a byte, the canonical command bytes, and the frame's time. The block itself uses only FrameLevels (Ops). -/

namespace Sys2Proof.Machine

/-- The sum of the levels weighted 2^j, least significant first (30_encoding R304). -/
def weigh : List Bool → Nat
  | [] => 0
  | l :: ls => (if l then 1 else 0) + 2 * weigh ls

/-- FrameDecode(L) (30_encoding R304): none for a list that is not a frame. -/
def frameDecode (levels : List Bool) : Option Byte :=
  match levels with
  | [false, b0, b1, b2, b3, b4, b5, b6, b7, true] => some (BitVec.ofNat 8 (weigh [b0, b1, b2, b3, b4, b5, b6, b7]))
  | _ => none

/-- The falling edges of a list of levels that follow the level `prev`. -/
def fallsAfter (prev : Bool) : List Bool → Nat
  | [] => 0
  | l :: ls => (if prev && !l then 1 else 0) + fallsAfter l ls

/-- FallingEdges(b) (30_encoding R313): the start edge, and each j in 0..6 with b[j] = 1 and b[j+1] = 0. -/
def fallingEdges (b : Byte) : Nat :=
  1 + (((List.range 7).filter (fun j => b.getLsbD j && !b.getLsbD (j + 1))).length)

/-- B(n), the canonical byte of a command count (30_encoding R314). -/
def commandByte : Nat → Option Byte
  | 1 => some 0x00
  | 2 => some 0x01
  | 3 => some 0x05
  | 4 => some 0x15
  | 5 => some 0x55
  | _ => none

/-- The edge into a level: EDGE_R into 1, EDGE_F into 0 (30_encoding R345), at e. -/
def edgeInto (level : Bool) (e : Nat) : Event := ⟨if level then 1 else 0, e⟩

/-- One edge event for each level change of a list of levels that follow the level `prev`, the change into position k at
e = k·P (30_encoding R356). -/
def edgesFrom (p : Nat) (prev : Bool) (k : Nat) : List Bool → List Event
  | [] => []
  | l :: ls => if l = prev then edgesFrom p l (k + 1) ls else edgeInto l (k * p) :: edgesFrom p l (k + 1) ls

/-- HOSTBYTE b, P (30_encoding R356): the line rests high before and after the frame. -/
def hostByte (b : Byte) (p : Nat) : List Event := edgesFrom p true 0 (frameLevels b ++ [true])

/-- The frame of a byte as levels with the core cycles each is held (40_transport R401, R402). -/
def frameWave (c : Config) (b : Byte) : List (Bool × Nat) := (frameLevels b).map (fun l => (l, c.bitCycles))

/-- The core cycles of a frame (40_transport R402). -/
def frameCycles (c : Config) (b : Byte) : Nat := ((frameWave c b).map Prod.snd).sum

end Sys2Proof.Machine
end

