-- ==== Sys2Proof/Machine/Stage.lean ====
section
/-! DEFINITION. How an instruction is put where the next step takes it (assumption log 15). The block fetches no program:
an event is presented by the environment, a step follows from SEQ and MODE, a command from the edge count, an outcome and
its reply from the measured window. -/

namespace Sys2Proof.Machine

/-- An instant presented before all others. -/
def present (now : List Event) (s : State) : State := { s with input := now :: s.input }

/-- A window armed in a mode that has windows. -/
def stageWait (m : Mode) (s : State) : State := { armWindow s with mode := m }

/-- A window of the mode with its opening edge captured. -/
def stageOpen (m : Mode) (s : State) : State :=
  { stageWait m s with
    winOpen := true
    edgeCnt := 1
    cnt := 0
    sample := Memory.write 0 0 s.sample
    expPol := match m with | .survey => .rising | .configure => .falling | .finished => .falling }

/-- A CONFIGURE window closed by its timer with the count c: the next step is PROC_CONFIGURE, which runs the command. -/
def stageCommand (c : BitVec 4) (s : State) : State :=
  present [] { stageOpen .configure s with
    edgeCnt := c, armed := false, closeCause := .expired, ready := true, seq := .proc, txq := [] }

/-- Ten slots whose kept durations are all d (of CNT_W bits). -/
def stageSlots (c : Config) (d : Nat) : Window :=
  (List.range nSamples).foldl (fun m k => Memory.write k (truncCount c ((k * d : Nat) : Int)) m) []

/-- A complete SURVEY window whose durations are all d, under a target: the next step is PROC_SURVEY. -/
def stageMeasured (d : Nat) (target : BitVec 32) (s : State) : State :=
  present [] { stageOpen .survey s with
    edgeCnt := 10
    armed := false
    closeCause := .complete
    ready := true
    seq := .proc
    expPol := .falling
    txq := []
    sample := stageSlots s.cfg d
    target := target }

/-- A measurement that calls for a direction: FREQ = 0 under TARGET = 1 calls for UP, FREQ = BAUD over TARGET = 0 for
DOWN. -/
def stageToward (d : Dir) (s : State) : State :=
  match d with
  | .up => stageMeasured 0 1 s
  | .down => stageMeasured 1 0 s

/-- The value from which a step in the direction is possible. -/
def stageFrom (d : Dir) (last : Byte) : Byte :=
  match d with
  | .up => 0
  | .down => last

/-- The other direction. -/
def Dir.flip : Dir → Dir
  | .down => .up
  | .up => .down

/-- The value at the end of the range in the direction. -/
def stageEnd (d : Dir) (last : Byte) : Byte := stageFrom (Dir.flip d) last

/-- A coarse search in which the next window selects COARSE_MOVE. -/
def stageCoarseMove (d : Dir) (s : State) : State :=
  { stageToward d s with phase := .coarse, havePrev := false, coarse := stageFrom d s.cfg.coarseMax }

/-- A fine search in the direction with the prior error err. -/
def stageFine (d : Dir) (priorErr : Int) (s : State) : State :=
  { s with
    phase := .fine
    dir := d
    havePrev := true
    priorErr := BitVec.ofInt 33 priorErr
    fine := stageFrom d s.cfg.fineMax
    lastAction := .none }

/-- A coarse search in which the next window brackets the target and the fine search goes in the direction. -/
def stageBracket (d : Dir) (s : State) : State :=
  { stageToward d s with
    phase := .coarse, havePrev := true, dir := Dir.flip d, fine := stageFrom d s.cfg.fineMax }

/-- The state s with the instruction i to be run by the very next step. -/
def stage (i : Instr) (s : State) : State :=
  match i with
  | .cfgShift1 => stageCommand 1 s
  | .cfgShift0 => stageCommand 2 s
  | .cfgSurvey => stageCommand 3 s
  | .cfgReset => stageCommand 4 s
  | .cfgNop => stageCommand 5 s
  | .cfgInvalid c => stageCommand c s
  | .capOpen e => present [⟨0, e⟩] (stageWait .configure s)
  | .capNextF e => present [⟨0, e⟩] (stageOpen .configure s)
  | .capNextR e => present [⟨1, e⟩] (stageOpen .survey s)
  | .capExpire => present [⟨2, 0⟩] (stageOpen .configure s)
  | .reset => present [⟨4, 0⟩] s
  | .procConfigure => stageCommand 5 s
  | .procSurvey => stageMeasured 0 0 s
  | .txSend => present [] { s with seq := .tx, armed := false, txq := [replyByte .ack5] }
  | .txDone => present [] { s with seq := .tx, armed := false, txq := [] }
  | .exactHit => stageMeasured 0 0 s
  | .coarseMove d => stageCoarseMove d s
  | .coarseBoundary d =>
    { stageToward d s with phase := .coarse, havePrev := false, coarse := stageEnd d s.cfg.coarseMax }
  | .coarseBracket d => stageBracket d s
  | .fineRollback => stageFine .up 0 (stageToward .down s)
  | .fineCross => stageFine .up (-4294967295) (stageToward .down s)
  | .fineContinue d => stageFine d 4294967295 (stageToward d s)
  | .fineBoundary d => { stageFine d 4294967295 (stageToward d s) with fine := stageEnd d s.cfg.fineMax }
  | .surveyTimeout => { stageMeasured 0 0 s with edgeCnt := 1, closeCause := .expired }
  | .ack1 => stageCommand 1 s
  | .ack2 => stageCommand 2 s
  | .ack3 => stageCommand 3 s
  | .ack4 => stageCommand 4 s
  | .ack5 => stageCommand 5 s
  | .error => stageCommand 6 s
  | .cdec => stageCoarseMove .down s
  | .cinc => stageCoarseMove .up s
  | .fdec => stageBracket .down s
  | .finc => stageBracket .up s
  | .min =>
    { stageToward .down s with phase := .coarse, havePrev := false, coarse := stageEnd .down s.cfg.coarseMax }
  | .max =>
    { stageToward .up s with phase := .coarse, havePrev := false, coarse := stageEnd .up s.cfg.coarseMax }
  | .finish => stageMeasured 0 0 s

/-- A word of no row, presented as an event of a reserved code: the next step rejects it. -/
def stageNothing (s : State) : State := present [⟨3, 0⟩] s

end Sys2Proof.Machine
end

