-- ==== Sys2Proof/Machine/Step.lean ====
section
/-! DEFINITION. One step of the machine, and the placing of a table word where the next step takes it. -/

namespace Sys2Proof.Machine

/-- One step: fetch what comes next and run it (Fetch). -/
def step : State → Host.Outcome State Fault Refusal := advance

/-- The state with the instruction of a table word placed so that the very next step runs it (Stage). -/
def State.withFetchWord (s : State) (nbits w : Nat) : State :=
  match decodeTableWord nbits w with
  | some i => stage i s
  | none => stageNothing s

end Sys2Proof.Machine
end

