-- ==== Sys2Proof/Machine/Script.lean ====
section
/-! DEFINITION. The stimulus script of 30_encoding R355 and R356: statements, their expansion into events, and how a
statement is played against the block. No step of the block reads a script. -/

namespace Sys2Proof.Machine

/-- The statements and pseudo-statements (30_encoding R355, R356). -/
inductive Stmt where
  | edgeF (e : Nat)
  | edgeR (e : Nat)
  | expire
  | reset
  | hostByte (b : Byte) (p : Nat)
  | cmd (n p : Nat)
  | bit (b : Bool) (p : Nat)
  | survey (p : Nat)
  | resetCmd (p : Nat)
  | nopCmd (p : Nat)
  | target (v : BitVec 32) (p : Nat)
  | cadence (p : Nat)
  deriving DecidableEq, Repr

/-- The EXPIRE event. -/
def expireEvent : Event := ⟨2, 0⟩

/-- CMD n, P (30_encoding R356): none where its condition fails. -/
def cmdEvents (c : Config) (n p : Nat) : Option (List Event) :=
  if 1 ≤ p ∧ 9 * p < c.tCmd then (commandByte n).map (fun b => hostByte b p ++ [expireEvent]) else none

/-- BIT b, P (30_encoding R356). -/
def bitEvents (c : Config) (b : Bool) (p : Nat) : Option (List Event) := cmdEvents c (if b then 1 else 2) p

/-- BIT for each bit of a list, in order. -/
def bitsEvents (c : Config) (p : Nat) : List Bool → Option (List Event)
  | [] => some []
  | b :: bs =>
    match bitEvents c b p, bitsEvents c p bs with
    | some x, some y => some (x ++ y)
    | _, _ => none

/-- The bits of a u32, most significant first. -/
def bitsOf (v : BitVec 32) : List Bool := (List.range 32).map (fun i => v.getLsbD (31 - i))

/-- The events of a statement (30_encoding R356): none where the statement's condition fails. -/
def expand (c : Config) : Stmt → Option (List Event)
  | .edgeF e => some [⟨0, e⟩]
  | .edgeR e => some [⟨1, e⟩]
  | .expire => some [expireEvent]
  | .reset => some [⟨4, 0⟩]
  | .hostByte b p => if 1 ≤ p then some (hostByte b p) else none
  | .cmd n p => cmdEvents c n p
  | .bit b p => bitEvents c b p
  | .survey p => cmdEvents c 3 p
  | .resetCmd p => cmdEvents c 4 p
  | .nopCmd p => cmdEvents c 5 p
  | .target v p => bitsEvents c p (bitsOf v)
  | .cadence p => if 1 ≤ p ∧ 9 * p < c.tWin then some (hostByte 0x55 p) else none

/-- The block's own steps until it waits again, at most n of them, with nothing presented (30_encoding R355). -/
def settle : Nat → State → Result
  | 0, s => .next s
  | n + 1, s =>
    match s.seq with
    | .wait => .next s
    | .proc => match step (present [] s) with | .next t => settle n t | .fault f => .fault f | .refused r => .refused r
    | .tx => match step (present [] s) with | .next t => settle n t | .fault f => .fault f | .refused r => .refused r

/-- Events one after another, the block running its PROC and TX steps to completion after each (30_encoding R355): a
response is one PROC step, at most 11 TX_SEND steps and one TX_DONE step. -/
def play : List Event → State → Result
  | [], s => .next s
  | ev :: evs, s =>
    match step (present [ev] s) with
    | .next t => match settle 13 t with | .next u => play evs u | .fault f => .fault f | .refused r => .refused r
    | .fault f => .fault f
    | .refused r => .refused r

end Sys2Proof.Machine
end

