-- ==== Sys2Proof/Safety.lean ====
section
/-! DEFINITION. What claims are stated in: the legal states (the invariant of every step), what an instruction keeps, the
reset column, and the bound on the windows of a survey. -/

namespace Sys2Proof.Machine

/-- The polarity the capture unit expects after n captured edges of a window (41_capture R506). -/
def polarityAfter (m : Mode) (n : Nat) : Polarity := if m = .survey ∧ n % 2 = 1 then .rising else .falling

/-- In SURVEY the last action is the one whose undo stays in range, and it agrees with DIR and PHASE (44_survey R806,
R808, R810). -/
def SearchConsistent (s : State) : Prop :=
  match s.phase, s.dir with
  | .fine, .up => s.lastAction = .finc ∧ 1 ≤ s.fine.toNat
  | .fine, .down => s.lastAction = .fdec ∧ s.fine.toNat < s.cfg.fineMax.toNat
  | .coarse, .up => (s.havePrev = true ∧ s.lastAction = .cinc ∧ 1 ≤ s.coarse.toNat)
  | .coarse, .down =>
    (s.havePrev = false ∧ s.lastAction = .none) ∨
      (s.havePrev = true ∧ s.lastAction = .cdec ∧ s.coarse.toNat < s.cfg.coarseMax.toNat)

/-- The legal states: those the rules keep the block in from reset on. -/
structure Legal (s : State) : Prop where
  /-- Every register holds a legal value (10_state R101). -/
  regs : ∀ r, legalValue s.cfg r (readReg s r) = true
  /-- The SampleWindow is in canonical form (20_memory R201, R205). -/
  window : Memory.wf s.cfg.cntW s.sample = true
  /-- Between steps the line rests high (40_transport R404). -/
  line : s.txLine = true
  /-- SEQ = WAIT: a window is armed, nothing is queued, the mode has windows (41_capture R500, 40_transport R406). -/
  waiting : s.seq = .wait → s.mode ≠ .finished ∧ s.armed = true ∧ s.ready = false ∧ s.txq = []
  /-- A window that has not opened is as ArmWindow left it (40_transport R406, R502). -/
  unopened : s.seq = .wait → s.winOpen = false → s.edgeCnt = 0 ∧ s.expPol = .falling
  /-- An open window: 1 to 9 edges, before its limit, the next polarity expected (41_capture R504 to R508). -/
  opened : s.seq = .wait → s.winOpen = true →
    (1 ≤ s.edgeCnt.toNat ∧ s.edgeCnt.toNat ≤ 9) ∧ (∃ l, limit s.cfg s.mode = some l ∧ s.elapsed < l) ∧
      s.expPol = polarityAfter s.mode s.edgeCnt.toNat
  /-- SEQ = PROC: one closed window, READY set, nothing queued; a complete window has ten edges (41_capture R507, R510,
  20_memory R203, R211). -/
  processing : s.seq = .proc →
    s.mode ≠ .finished ∧ s.armed = false ∧ s.ready = true ∧ s.txq = [] ∧
      (1 ≤ s.edgeCnt.toNat ∧ s.edgeCnt.toNat ≤ 10) ∧ (s.closeCause = .complete → s.edgeCnt.toNat = 10) ∧
      (s.closeCause = .expired → s.edgeCnt.toNat ≤ 9)
  /-- SEQ = TX: capture off, at most a terminal reply and its trailer queued (20_memory R211, 40_transport R407). -/
  sending : s.seq = .tx → s.armed = false ∧ s.ready = false ∧ s.txq.length ≤ 11
  /-- During a survey the search registers agree (44_survey R803 to R810). -/
  search : s.mode = .survey → SearchConsistent s

/-- How many slots, from slot 0 on, the current window has written (20_memory R201, R203): the others hold what an earlier
window or power-on left. -/
def liveSlots (s : State) : Nat :=
  match s.seq with
  | .wait => if s.winOpen then s.edgeCnt.toNat else 0
  | .proc => s.edgeCnt.toNat
  | .tx => 0

/-- The states differ at most in slots that the current window has not written. -/
def AgreeButStaleSlots (s t : State) : Prop :=
  t = { s with sample := t.sample } ∧ ∀ i, i < liveSlots s → Memory.read i t.sample = Memory.read i s.sample

/-- Every register outside the list keeps its value. -/
def KeepsRegs (changed : List Reg) (s t : State) : Prop := ∀ r, r ∉ changed → readReg t r = readReg s r

/-- Every slot outside the list reads as before. -/
def KeepsSlots (changed : List Nat) (s t : State) : Prop := ∀ i, i ∉ changed → memRead i t = memRead i s

/-- What no instruction touches but the transmitter's and the environment's parts: the parameters, the events to come and
the bytes sent. -/
def KeepsOutside (s t : State) : Prop := t.cfg = s.cfg ∧ t.input = s.input ∧ t.sent = s.sent

/-- The step answers a state in which only the listed registers have changed and `out` has been appended to TXQ: every
slot reads as before. -/
def Emits (changed : List Reg) (out : List Byte) (s t : State) : Prop :=
  KeepsRegs changed s t ∧ KeepsSlots [] s t ∧ KeepsOutside s t ∧ t.txq = s.txq ++ out

/-- EST_FREQ − TARGET as an integer, written out (44_survey R801). -/
def currentError (s : State) : Int := (s.estFreq.toNat : Int) - (s.target.toNat : Int)

/-- The error of the current window calls for the direction (44_survey R801): UP below the target, DOWN above it. -/
def CallsFor (s : State) (d : Dir) : Prop :=
  match d with
  | .up => s.estFreq.toNat < s.target.toNat
  | .down => s.target.toNat < s.estFreq.toNat

/-- The reset column of 10_state R101. -/
def resetColumn (c : Config) : Reg → Int
  | .coarse => c.coarseInit.toNat
  | .fine => c.fineInit.toNat
  | .armed => 1
  | .txLine => 1
  | .mode => 0
  | .seq => 0
  | .target => 0
  | .phase => 0
  | .dir => 0
  | .havePrev => 0
  | .lastAction => 0
  | .priorFreq => 0
  | .priorErr => 0
  | .priorVar => 0
  | .estAvg => 0
  | .estFreq => 0
  | .estVar10 => 0
  | .winOpen => 0
  | .edgeCnt => 0
  | .expPol => 0
  | .cnt => 0
  | .elapsed => 0
  | .closeCause => 0
  | .ready => 0

/-- The environment presents a RESET event at this instant. -/
def ResetPresented (s : State) : Prop := ∃ now later, s.input = now :: later ∧ ∃ ev ∈ now, ev.code = 4

/-- The table row of an outcome (opcode_table.json). -/
def outcomeInstr : SurveyOutcome → Instr
  | .exactHit => .exactHit
  | .coarseMove d => .coarseMove d
  | .coarseBoundary d => .coarseBoundary d
  | .coarseBracket d => .coarseBracket d
  | .fineRollback => .fineRollback
  | .fineCross => .fineCross
  | .fineContinue d => .fineContinue d
  | .fineBoundary d => .fineBoundary d
  | .timeout => .surveyTimeout

/-- The instruction of a later edge of a window (opcode_table.json). -/
def edgeInstr (p : Polarity) (e : Nat) : Instr :=
  match p with
  | .falling => .capNextF e
  | .rising => .capNextR e

/-- An answer with its next state changed by f, where it has one. -/
def afterNext (f : State → State) : Host.Outcome State Fault Refusal → Host.Outcome State Fault Refusal
  | .next t => .next (f t)
  | .fault r => .fault r
  | .refused r => .refused r

/-- How many more windows of a survey can end without a terminal reply (44_survey R816). -/
def surveyBudget (s : State) : Nat :=
  match s.phase with
  | .coarse =>
    s.cfg.fineMax.toNat +
      (if s.havePrev then
        match s.dir with
        | .up => s.cfg.coarseMax.toNat - s.coarse.toNat
        | .down => s.coarse.toNat
      else s.cfg.coarseMax.toNat)
  | .fine =>
    match s.dir with
    | .up => s.cfg.fineMax.toNat - s.fine.toNat
    | .down => s.fine.toNat

/-- The target after configure commands with these bits, first bit first (43_configure R709). -/
def bitsValue (bs : List Bool) : Nat := bs.foldl (fun n b => 2 * n + (if b then 1 else 0)) 0

/-- The configure commands of a list of bits, run one after another: count 1 for a 1, count 2 for a 0 (43_configure
R709). -/
def shiftBits : List Bool → State → Host.Outcome State Fault Refusal
  | [], s => .next s
  | b :: bs, s =>
    match exec (if b then .cfgShift1 else .cfgShift0) s with
    | .next t => shiftBits bs t
    | .fault f => .fault f
    | .refused r => .refused r

/-- The slots of a window of ten captures at the counter values c, each less the latency bias (41_capture R505). -/
def biased (c : Config) (counts : List Nat) : List Nat :=
  counts.map (fun k : Nat => trunc c.cntW ((k : Int) - (c.latBias : Int)))

/-- The counter values of captures at the times ts (41_capture R505). -/
def counted (c : Config) (times : List Nat) : List Nat := times.map (fun t : Nat => trunc c.cntW (t : Int))

/-- The true durations between consecutive times. -/
def gaps : List Nat → List Nat
  | a :: b :: rest => (b - a) :: gaps (b :: rest)
  | _ => []

end Sys2Proof.Machine
end

