-- ==== Sys2Proof/Certificates/Slice0/Obligations.lean ====
section
/-! DEFINITION. The statements for the provers. Each docstring names the rules of spec/ it formalises; the conditions of a
completion statement are those under which the rule's step is enabled. -/

open Sys2Proof Sys2Proof.Machine

-- Encodings

/-- Every well-formed instruction decodes from its own word, with every operand, under every condition of its table row
(30_encoding R311, R320, R345, R346). -/
def Obligations.DecodeOfEncodeIsIdentity : Prop :=
  ∀ (i : Instr) (k : Ctx), i.wf = true → i.admits k = true → decode k (encode i) = .ok i

/-- The decoder reads only well-formed instructions whose table condition holds, and, but for the transmitter's free MODE
bits, only from the instruction's own word: no reserved encoding falls through to a neighbour (30_encoding R350). -/
def Obligations.DecodedInstructionsReencode : Prop :=
  ∀ (k : Ctx) (w : Word) (i : Instr), decode k w = .ok i →
    i.wf = true ∧ i.admits k = true ∧ (i ≠ .txSend → i ≠ .txDone → encode i = w)

/-- A few words written out from the encoding tables decode to what they stand for (30_encoding R311, R320, R345, R346). -/
def Obligations.HandWrittenWordsDecode : Prop :=
  decode Ctx.bare ⟨.cmdCount, 0b0001#8, 0⟩ = .ok .cfgShift1 ∧
  decode Ctx.bare ⟨.event, 0b001#8, 3338⟩ = .ok (.capNextR 3338) ∧
  decode Ctx.bare ⟨.step, 0b0101#8, 0⟩ = .ok .procSurvey ∧
  decode Ctx.bare ⟨.surveyOutcome, 0b11000001#8, 0⟩ = .ok (.coarseMove .up) ∧
  decode Ctx.bare ⟨.reply, 0b11010010#8, 0⟩ = .ok .finish

/-- 30_encoding R345: an input with a reserved event code is refused. -/
def Obligations.ReservedEventCodesAreRefused : Prop :=
  ∀ (s : State) (code : BitVec 3) (e : Nat) (later : List (List Event)),
    code = 0b011#3 ∨ code = 0b101#3 ∨ code = 0b110#3 ∨ code = 0b111#3 →
    s.input = [⟨code, e⟩] :: later →
    step s = .refused (.rejected (.reservedEvent code.toNat))

/-- 30_encoding R305 with R303 and R304: FrameDecode(FrameLevels(b)) = b. -/
def Obligations.FrameRoundTrip : Prop := ∀ b : Byte, frameDecode (frameLevels b) = some b

/-- 30_encoding R313 and R356: the falling edges that a host's frame puts on the line, one bit time P apart, are
FallingEdges(b), at least 1 and at most 5. -/
def Obligations.HostByteHasItsFallingEdges : Prop :=
  ∀ (b : Byte) (p : Nat),
    ((hostByte b p).filter (fun ev => decide (ev.code = 0))).length = fallingEdges b ∧
      1 ≤ fallingEdges b ∧ fallingEdges b ≤ 5

/-- 30_encoding R314 and R315: the canonical byte of a count has that many falling edges, and the bytes 2^N − 1 for N = 1 to
7 all have two, and four edges of either polarity. -/
def Obligations.CanonicalBytesGiveTheirCount : Prop :=
  (∀ n b, commandByte n = some b → fallingEdges b = n) ∧ (∀ n, 1 ≤ n → n ≤ 5 → (commandByte n).isSome = true) ∧
    (∀ n p, 1 ≤ n → n ≤ 7 →
      fallingEdges (BitVec.ofNat 8 (2 ^ n - 1)) = 2 ∧ (hostByte (BitVec.ofNat 8 (2 ^ n - 1)) p).length = 4)

/-- 30_encoding R321: bits [7:4] of a reply byte name its class, and in the adjustment and terminal classes bit 0 is the
upward variant. -/
def Obligations.ReplyClassStandsInHighBits : Prop :=
  (∀ r : Reply, classOfByte (replyByte r) = some (replyClass r)) ∧
    (∀ r ∈ [Reply.cinc, .finc, .max], (replyByte r).getLsbD 0 = true) ∧
    (∀ r ∈ [Reply.cdec, .fdec, .min], (replyByte r).getLsbD 0 = false)

/-- 30_encoding R330 with 20_memory R215: the ten trailer bytes and their order. -/
def Obligations.TrailerLayout : Prop :=
  ∀ (f v : BitVec 32) (fine coarse : Byte),
    (trailer (f, v) fine coarse).map BitVec.toNat =
      [f.toNat % 256, f.toNat / 256 % 256, f.toNat / 65536 % 256, f.toNat / 16777216,
       v.toNat % 256, v.toNat / 256 % 256, v.toNat / 65536 % 256, v.toNat / 16777216, fine.toNat, coarse.toNat]

-- Which instruction a step runs

/-- An event presented alone is decoded and run, with the event taken from the input (30_encoding R345). -/
def Obligations.StepRunsThePresentedEvent : Prop :=
  ∀ (s : State) (ev : Event) (later : List (List Event)) (i : Instr),
    s.input = [ev] :: later → decode (tableCtx s) (eventWord ev) = .ok i →
    step s = exec i { s with input := later }

/-- With nothing presented, the internal step that SEQ, MODE and TXQ select is decoded and run (30_encoding R346): the step
of each of them, and none for SEQ = PROC with MODE = FINISHED. -/
def Obligations.StepRunsTheSelectedStep : Prop :=
  (∀ (s : State) (i : Instr), s.seq ≠ .wait → decode (tableCtx s) (stepWord s) = .ok i →
    (s.input = [] → step s = exec i s) ∧
    (∀ later, s.input = [] :: later → step s = exec i { s with input := later })) ∧
  (∀ s : State, s.input = [] →
    (s.seq = .proc → s.mode = .configure → step s = exec .procConfigure s) ∧
    (s.seq = .proc → s.mode = .survey → step s = exec .procSurvey s) ∧
    (s.seq = .proc → s.mode = .finished → step s = .refused (.rejected (.noSuchStep 6))) ∧
    (s.seq = .tx → s.txq ≠ [] → step s = exec .txSend s) ∧
    (s.seq = .tx → s.txq = [] → step s = exec .txDone s))

/-- 41_capture R511 with R502 (rising edges are ignored) and R509 (the timer does not run): an armed window that has not
opened waits for a falling edge, however long: with nothing presented, or rising edges only, the block keeps its whole state
and sends nothing. That an instant at which nothing is presented is a step, which keeps the state, is the model's choice
(assumption log 4): 30_encoding R346 gives no internal step in WAIT. -/
def Obligations.UnopenedWindowWaitsForEver : Prop :=
  ∀ (s : State) (es : List (Option Nat)),
    s.seq = .wait → s.armed = true → s.winOpen = false → s.expPol = .falling →
    s.input = es.map (fun o => o.elim [] (fun e => [⟨1, e⟩])) →
    Sys2Proof.core.run es.length s = .next { s with input := [] } ∧ exec .capExpire s = .refused .expireWithoutWindow

/-- 60_exceptions R903: at one instant RESET discards all others; an expiry and an edge close the window as EXPIRED, and the
edge, which comes next, is ignored. -/
def Obligations.SimultaneousEventsAreTakenInOrder : Prop :=
  (∀ (s : State) (now : List Event) (later : List (List Event)),
    s.input = now :: later → (∃ ev ∈ now, isReset ev = true ∧ ev.e = 0) → (∀ ev ∈ now, isReserved ev = false) →
    (∀ ev ∈ now, isReset ev = true → ev.e = 0) →
    step s = exec .reset { s with input := later }) ∧
  (∀ (s : State) (c : BitVec 3) (e : Nat) (now : List Event) (later : List (List Event)),
    c = 0#3 ∨ c = 1#3 → now = [⟨c, e⟩, ⟨2, 0⟩] ∨ now = [⟨2, 0⟩, ⟨c, e⟩] → s.input = now :: later →
    s.seq = .wait → s.armed = true → s.winOpen = true →
    ∃ t, step s = .next t ∧ t = closeWindow .expired { s with input := [⟨c, e⟩] :: later } ∧
      t.closeCause = .expired ∧ step t = .next { t with input := later })

-- Capture

/-- 41_capture R502 (and 40_transport R407): an ignored edge leaves the whole state unchanged. -/
def Obligations.IgnoredEdgeChangesNothing : Prop :=
  ∀ (s : State) (e : Nat),
    (s.seq ≠ .wait ∨ s.armed = false ∨ s.expPol = .rising →
      exec (.capOpen e) s = .next s ∧ exec (.capNextF e) s = .next s) ∧
    (s.seq ≠ .wait ∨ s.armed = false ∨ s.expPol = .falling → exec (.capNextR e) s = .next s)

/-- 41_capture R504 with R506: the opening edge; e is not used. -/
def Obligations.OpeningEdgeOpensTheWindow : Prop :=
  ∀ (s : State) (e : Nat), s.seq = .wait → s.armed = true → s.winOpen = false → s.expPol = .falling →
    ∃ t, exec (.capOpen e) s = .next t ∧ t.cnt = 0 ∧ t.elapsed = 0 ∧ memRead 0 t = .ok 0 ∧ t.edgeCnt = 1 ∧
      t.winOpen = true ∧ t.expPol = (if s.mode = .survey then .rising else .falling) ∧
      KeepsRegs [.cnt, .elapsed, .edgeCnt, .winOpen, .expPol] s t ∧ KeepsSlots [0] s t ∧ KeepsOutside s t ∧
      t.txq = s.txq

/-- 41_capture R505 with R506 and R507: a later accepted edge, of either polarity, stores the counter value less the latency
bias in the next slot; the tenth closes the window as COMPLETE. -/
def Obligations.NextEdgeIsCaptured : Prop :=
  ∀ (s : State) (p : Polarity) (e l : Nat), s.seq = .wait → s.armed = true → s.winOpen = true → s.expPol = p →
    limit s.cfg s.mode = some l → s.elapsed < e → e < l → s.edgeCnt.toNat ≤ 9 →
    ∃ t v, exec (edgeInstr p e) s = .next t ∧
      t.elapsed = e ∧ t.cnt.toNat = e % 2 ^ s.cfg.cntW ∧ memRead s.edgeCnt.toNat t = .ok v ∧
      (v.toNat : Int) = ((e : Int) - s.cfg.latBias) % ((2 ^ s.cfg.cntW : Nat) : Int) ∧
      t.edgeCnt.toNat = s.edgeCnt.toNat + 1 ∧
      (s.mode = .survey → t.expPol ≠ s.expPol) ∧ (s.mode ≠ .survey → t.expPol = s.expPol) ∧
      KeepsSlots [s.edgeCnt.toNat] s t ∧ KeepsOutside s t ∧ t.txq = s.txq ∧
      (s.edgeCnt.toNat < 9 → KeepsRegs [.elapsed, .cnt, .edgeCnt, .expPol] s t) ∧
      (s.edgeCnt.toNat = 9 → t.armed = false ∧ t.closeCause = .complete ∧ t.ready = true ∧ t.seq = .proc ∧
        KeepsRegs [.elapsed, .cnt, .edgeCnt, .expPol, .armed, .closeCause, .ready, .seq] s t)

/-- 41_capture R503 with R513 and 60_exceptions R916: an edge that would be accepted but is out of its time has no step. -/
def Obligations.EdgeOutOfTimeHasNoStep : Prop :=
  ∀ (s : State) (e l : Nat), s.seq = .wait → s.armed = true → s.winOpen = true → limit s.cfg s.mode = some l →
    s.elapsed < l →
    (e ≤ s.elapsed → (s.expPol = .falling → exec (.capNextF e) s = .refused .edgeNotAfterLast) ∧
      (s.expPol = .rising → exec (.capNextR e) s = .refused .edgeNotAfterLast)) ∧
    (l ≤ e → (s.expPol = .falling → exec (.capNextF e) s = .refused .edgePastLimit) ∧
      (s.expPol = .rising → exec (.capNextR e) s = .refused .edgePastLimit))

/-- 41_capture R509 with R510: the timer closes an open window and wakes the sequencer; with no window open the event has no
step. -/
def Obligations.ExpiryClosesTheOpenWindow : Prop :=
  ∀ s : State,
    (s.seq = .wait → s.armed = true → s.winOpen = true →
      ∃ t, exec .capExpire s = .next t ∧ t.armed = false ∧ t.closeCause = .expired ∧ t.ready = true ∧ t.seq = .proc ∧
        Emits [.armed, .closeCause, .ready, .seq] [] s t) ∧
    (s.seq ≠ .wait ∨ s.armed = false ∨ s.winOpen = false → exec .capExpire s = .refused .expireWithoutWindow)

-- CONFIGURE

/-- 43_configure R701. -/
def Obligations.ShiftOneIntoTarget : Prop :=
  ∀ s : State, s.seq = .proc → s.mode = .configure →
    ∃ t, exec .cfgShift1 s = .next t ∧ t.target.toNat = (2 * s.target.toNat + 1) % 2 ^ 32 ∧ Emits [.target] [0xA1] s t

/-- 43_configure R702. -/
def Obligations.ShiftZeroIntoTarget : Prop :=
  ∀ s : State, s.seq = .proc → s.mode = .configure →
    ∃ t, exec .cfgShift0 s = .next t ∧ t.target.toNat = 2 * s.target.toNat % 2 ^ 32 ∧ Emits [.target] [0xA2] s t

/-- 43_configure R703 with 10_state R145. -/
def Obligations.SurveyBegins : Prop :=
  ∀ s : State, s.seq = .proc → s.mode = .configure →
    ∃ t, exec .cfgSurvey s = .next t ∧ t.mode = .survey ∧ t.phase = .coarse ∧ t.dir = .down ∧ t.havePrev = false ∧
      t.lastAction = .none ∧ t.priorFreq = 0 ∧ t.priorErr = 0 ∧ t.priorVar = 0 ∧
      Emits [.mode, .phase, .dir, .havePrev, .lastAction, .priorFreq, .priorErr, .priorVar] [0xA3] s t

/-- 43_configure R704 with 10_state R145 and R146. -/
def Obligations.ResetCommandClearsTheSearch : Prop :=
  ∀ s : State, s.seq = .proc → s.mode = .configure →
    ∃ t, exec .cfgReset s = .next t ∧ t.target = 0 ∧ t.coarse = s.cfg.coarseInit ∧ t.fine = s.cfg.fineInit ∧
      t.phase = .coarse ∧ t.dir = .down ∧ t.havePrev = false ∧ t.lastAction = .none ∧ t.priorFreq = 0 ∧
      t.priorErr = 0 ∧ t.priorVar = 0 ∧
      Emits [.target, .coarse, .fine, .phase, .dir, .havePrev, .lastAction, .priorFreq, .priorErr, .priorVar]
        [0xA4] s t

/-- 43_configure R705, and R706 with 60_exceptions R910: the reserved command is acknowledged, an invalid count is answered
with ERROR, and nothing else changes. -/
def Obligations.NopAndInvalidCountsOnlyReply : Prop :=
  ∀ (s : State), s.seq = .proc → s.mode = .configure →
    (∃ t, exec .cfgNop s = .next t ∧ Emits [] [0xA5] s t) ∧
    (∀ c : BitVec 4, 6 ≤ c.toNat → c.toNat ≤ 10 → ∃ t, exec (.cfgInvalid c) s = .next t ∧ Emits [] [0xEE] s t)

/-- 43_configure R700: the step consumes READY, runs the command that the count selects, and goes to TX. -/
def Obligations.ProcConfigureRunsTheCommand : Prop :=
  ∀ (s : State) (i : Instr), s.seq = .proc → s.mode = .configure →
    (s.edgeCnt = 1 ∧ i = .cfgShift1 ∨ s.edgeCnt = 2 ∧ i = .cfgShift0 ∨ s.edgeCnt = 3 ∧ i = .cfgSurvey ∨
      s.edgeCnt = 4 ∧ i = .cfgReset ∨ s.edgeCnt = 5 ∧ i = .cfgNop ∨
      6 ≤ s.edgeCnt.toNat ∧ s.edgeCnt.toNat ≤ 10 ∧ i = .cfgInvalid s.edgeCnt) →
    ∃ t, exec i { s with ready := false } = .next t ∧ exec .procConfigure s = .next { t with seq := .tx }

/-- 30_encoding R322 with 43_configure R700: a command of count 1 to 5 is acknowledged with 0xA0 | n, and nothing else is
queued. -/
def Obligations.AckEchoesTheCount : Prop :=
  ∀ s : State, s.seq = .proc → s.mode = .configure → 1 ≤ s.edgeCnt.toNat → s.edgeCnt.toNat ≤ 5 →
    ∃ t, exec .procConfigure s = .next t ∧ t.txq = s.txq ++ [0xA0#8 ||| s.edgeCnt.setWidth 8]

/-- 43_configure R707: CLOSE is not read in CONFIGURE. -/
def Obligations.ConfigureDoesNotReadClose : Prop :=
  ∀ (s : State) (c : Close), s.mode = .configure →
    exec .procConfigure { s with closeCause := c } =
      afterNext (fun t => { t with closeCause := c }) (exec .procConfigure s)

/-- 43_configure R709: 32 bit commands leave the target they spell, most significant bit first, whatever it was before. -/
def Obligations.ThirtyTwoCommandsSpellTheTarget : Prop :=
  ∀ (s : State) (bs : List Bool), s.seq = .proc → s.mode = .configure → bs.length = 32 →
    ∃ t, shiftBits bs s = .next t ∧ t.target.toNat = bitsValue bs

/-- 43_configure R708 (10_state R115): TARGET changes only in a PROC_CONFIGURE step or at reset. -/
def Obligations.TargetChangesOnlyInConfigure : Prop :=
  ∀ s t : State, step s = .next t → t.target ≠ s.target → s.seq = .proc ∧ s.mode = .configure ∨ ResetPresented s

-- The estimator

/-- 42_estimator R609 with R601 to R605: the three results, exactly, and nothing else written. -/
def Obligations.EstimateOfTheWindow : Prop :=
  ∀ (s : State) (x : Nat → Nat), (∀ i, 1 ≤ i → i ≤ 9 → ∃ v, memRead i s = .ok v ∧ v.toNat = x i) →
    ∃ d : Nat → Nat,
      (∀ i, i < 8 → (d i : Int) = ((x (i + 2) : Int) - (x (i + 1) : Int)) % ((2 ^ s.cfg.cntW : Nat) : Int)) ∧
      ∃ a, a = ((List.range 8).map d).sum / 8 ∧
      ∃ t, estimate s = .ok t ∧ t.estAvg.toNat = a ∧ t.estFreq.toNat = Nat.min (a * s.cfg.baud) (2 ^ 32 - 1) ∧
        t.estVar10.toNat =
          Nat.min (10 * ((List.range 8).map (fun i => (((d i : Int) - (a : Int)) ^ 2).toNat)).sum / 8) (2 ^ 32 - 1) ∧
        Emits [.estAvg, .estFreq, .estVar10] [] s t

/-- 42_estimator R606: the durations do not depend on LAT_BIAS. -/
def Obligations.DurationsIgnoreTheLatencyBias : Prop :=
  ∀ (c : Config) (counts : List Nat), durations c.cntW (biased c counts) = durations c.cntW counts

/-- 42_estimator R607: a duration is measured modulo 2^CNT_W, hence exactly where it is less, whatever the counter wraps. -/
def Obligations.DurationsAreExactUpToTheWrap : Prop :=
  ∀ (c : Config) (times : List Nat), List.IsChain (fun a b => a ≤ b) times →
    durations c.cntW (biased c (counted c times)) = (gaps times).map (fun d => d % 2 ^ c.cntW) ∧
      ((∀ d ∈ gaps times, d < 2 ^ c.cntW) → durations c.cntW (biased c (counted c times)) = gaps times)

/-- 42_estimator R608: FREQ is a multiple of BAUD, at most the mean-duration frequency and less than one BAUD below it. -/
def Obligations.FrequencyResolution : Prop :=
  ∀ (c : Config) (ds : List Nat), average ds * c.baud < 2 ^ 32 →
    c.baud ∣ frequency c ds ∧ 8 * frequency c ds ≤ ds.sum * c.baud ∧ ds.sum * c.baud < 8 * (frequency c ds + c.baud)

-- SURVEY

/-- 44_survey R800: a complete window is estimated and the one outcome that has a step in the measured state is run; an
expired window is not estimated and takes the error WindowTimeout. That an outcome's row is enabled exactly where PROC_SURVEY
selects it, and refused elsewhere, is the model's choice (assumption log 6): R800 and R600 know no such notion. Which outcome
that is, the outcomes' own statements say. -/
def Obligations.ProcSurveyRunsTheOutcome : Prop :=
  ∀ s : State, s.seq = .proc → s.mode = .survey →
    (s.closeCause = .complete →
      ∃ m o t, estimate { s with ready := false } = .ok m ∧ exec (outcomeInstr o) m = .next t ∧
        exec .procSurvey s = .next { t with seq := .tx } ∧
        ∀ o' t', exec (outcomeInstr o') m = .next t' → o' = o) ∧
    (s.closeCause = .expired →
      ∃ t, exec .surveyTimeout { s with ready := false } = .next t ∧ exec .procSurvey s = .next { t with seq := .tx })

/-- 44_survey R802 with R813: ERR = 0 ends the survey with FINISH and the current result, in either phase. -/
def Obligations.ExactHitFinishes : Prop :=
  ∀ s : State, s.seq = .proc → s.mode = .survey → s.closeCause = .complete → s.estFreq = s.target →
    ∃ t, exec .exactHit s = .next t ∧ t.mode = .finished ∧
      Emits [.mode] (0xD2 :: trailer (s.estFreq, s.estVar10) s.fine s.coarse) s t

/-- 44_survey R806 with R803 and R801: while the error does not change sign and the range is not exhausted, COARSE moves one
place against the error. -/
def Obligations.CoarseMoveSteps : Prop :=
  ∀ s : State, s.seq = .proc → s.mode = .survey → s.closeCause = .complete → s.phase = .coarse →
    (s.estFreq.toNat < s.target.toNat → (s.havePrev = true → s.dir = .up) → s.coarse ≠ s.cfg.coarseMax →
      ∃ t, exec (.coarseMove .up) s = .next t ∧ t.coarse = s.coarse + 1 ∧ t.lastAction = .cinc ∧ t.havePrev = true ∧
        t.dir = .up ∧ Emits [.coarse, .lastAction, .havePrev, .dir] [0xC1] s t) ∧
    (s.target.toNat < s.estFreq.toNat → (s.havePrev = true → s.dir = .down) → s.coarse ≠ 0 →
      ∃ t, exec (.coarseMove .down) s = .next t ∧ t.coarse = s.coarse - 1 ∧ t.lastAction = .cdec ∧ t.havePrev = true ∧
        t.dir = .down ∧ Emits [.coarse, .lastAction, .havePrev, .dir] [0xC0] s t)

/-- 44_survey R805 with R803 and R813: at the end of the coarse range the survey ends with MAX or MIN and the current
result; COARSE and FINE stay. -/
def Obligations.CoarseBoundaryEndsTheSurvey : Prop :=
  ∀ s : State, s.seq = .proc → s.mode = .survey → s.closeCause = .complete → s.phase = .coarse →
    (s.estFreq.toNat < s.target.toNat → (s.havePrev = true → s.dir = .up) → s.coarse = s.cfg.coarseMax →
      ∃ t, exec (.coarseBoundary .up) s = .next t ∧ t.mode = .finished ∧ t.dir = .up ∧
        Emits [.mode, .dir] (0xD1 :: trailer (s.estFreq, s.estVar10) s.fine s.coarse) s t) ∧
    (s.target.toNat < s.estFreq.toNat → (s.havePrev = true → s.dir = .down) → s.coarse = 0 →
      ∃ t, exec (.coarseBoundary .down) s = .next t ∧ t.mode = .finished ∧ t.dir = .down ∧
        Emits [.mode, .dir] (0xD0 :: trailer (s.estFreq, s.estVar10) s.fine s.coarse) s t)

/-- 44_survey R804 with R810 and R811: when the sign changes, fine search begins in the new direction with the current result
as the prior one, and takes its first step, or ends at the fine boundary. -/
def Obligations.BracketStartsFineSearch : Prop :=
  ∀ s : State, s.seq = .proc → s.mode = .survey → s.closeCause = .complete → s.phase = .coarse → s.havePrev = true →
    (s.estFreq.toNat < s.target.toNat → s.dir = .down →
      ∃ t, exec (.coarseBracket .up) s = .next t ∧ t.phase = .fine ∧ t.dir = .up ∧ t.priorFreq = s.estFreq ∧
        t.priorErr.toInt = (s.estFreq.toNat : Int) - s.target.toNat ∧ t.priorVar = s.estVar10 ∧
        (s.fine ≠ s.cfg.fineMax → t.fine = s.fine + 1 ∧ t.lastAction = .finc ∧
          Emits [.phase, .dir, .priorFreq, .priorErr, .priorVar, .fine, .lastAction] [0xF1] s t) ∧
        (s.fine = s.cfg.fineMax → t.mode = .finished ∧
          Emits [.phase, .dir, .priorFreq, .priorErr, .priorVar, .mode]
            (0xD1 :: trailer (s.estFreq, s.estVar10) s.fine s.coarse) s t)) ∧
    (s.target.toNat < s.estFreq.toNat → s.dir = .up →
      ∃ t, exec (.coarseBracket .down) s = .next t ∧ t.phase = .fine ∧ t.dir = .down ∧ t.priorFreq = s.estFreq ∧
        t.priorErr.toInt = (s.estFreq.toNat : Int) - s.target.toNat ∧ t.priorVar = s.estVar10 ∧
        (s.fine ≠ 0 → t.fine = s.fine - 1 ∧ t.lastAction = .fdec ∧
          Emits [.phase, .dir, .priorFreq, .priorErr, .priorVar, .fine, .lastAction] [0xF0] s t) ∧
        (s.fine = 0 → t.mode = .finished ∧
          Emits [.phase, .dir, .priorFreq, .priorErr, .priorVar, .mode]
            (0xD0 :: trailer (s.estFreq, s.estVar10) s.fine s.coarse) s t))

/-- 44_survey R808 with R807, R812 and R813: a worse error, with the prior error small or the target crossed, undoes the last
action and finishes with the prior result. -/
def Obligations.RollbackFinishesWithThePriorResult : Prop :=
  ∀ (s : State) (nd : Dir), s.seq = .proc → s.mode = .survey → s.closeCause = .complete → s.phase = .fine →
    CallsFor s nd →
    s.priorErr.toInt.natAbs < (currentError s).natAbs →
    s.priorErr.toInt.natAbs ≤ s.cfg.baud ∨ nd ≠ s.dir →
    ∃ t, exec .fineRollback s = .next t ∧ t.mode = .finished ∧ t.lastAction = .none ∧
      (s.lastAction = .finc → t.fine = s.fine - 1 ∧ t.coarse = s.coarse) ∧
      (s.lastAction = .fdec → t.fine = s.fine + 1 ∧ t.coarse = s.coarse) ∧
      (s.lastAction = .cinc → t.coarse = s.coarse - 1 ∧ t.fine = s.fine) ∧
      (s.lastAction = .cdec → t.coarse = s.coarse + 1 ∧ t.fine = s.fine) ∧
      (s.lastAction = .none → t.coarse = s.coarse ∧ t.fine = s.fine) ∧
      Emits [.mode, .lastAction, .fine, .coarse] (0xD2 :: trailer (s.priorFreq, s.priorVar) t.fine t.coarse) s t

/-- 44_survey R809 with R807 and R813: the target crossed without a worse error finishes with the current result. -/
def Obligations.CrossingFinishesWithTheCurrentResult : Prop :=
  ∀ (s : State) (nd : Dir), s.seq = .proc → s.mode = .survey → s.closeCause = .complete → s.phase = .fine →
    CallsFor s nd → nd ≠ s.dir →
    (currentError s).natAbs ≤ s.priorErr.toInt.natAbs →
    ∃ t, exec .fineCross s = .next t ∧ t.mode = .finished ∧
      Emits [.mode] (0xD2 :: trailer (s.estFreq, s.estVar10) s.fine s.coarse) s t

/-- 44_survey R810 with R807: in every other case the current result becomes the prior one, and FINE moves one place in DIR
while the range lasts. -/
def Obligations.FineSearchContinues : Prop :=
  ∀ s : State, s.seq = .proc → s.mode = .survey → s.closeCause = .complete → s.phase = .fine →
    CallsFor s s.dir →
    (currentError s).natAbs ≤ s.priorErr.toInt.natAbs ∨ s.cfg.baud < s.priorErr.toInt.natAbs →
    (s.dir = .up → s.fine ≠ s.cfg.fineMax →
      ∃ t, exec (.fineContinue .up) s = .next t ∧ t.fine = s.fine + 1 ∧ t.lastAction = .finc ∧
        t.priorFreq = s.estFreq ∧ t.priorErr.toInt = currentError s ∧ t.priorVar = s.estVar10 ∧
        Emits [.priorFreq, .priorErr, .priorVar, .fine, .lastAction] [0xF1] s t) ∧
    (s.dir = .down → s.fine ≠ 0 →
      ∃ t, exec (.fineContinue .down) s = .next t ∧ t.fine = s.fine - 1 ∧ t.lastAction = .fdec ∧
        t.priorFreq = s.estFreq ∧ t.priorErr.toInt = currentError s ∧ t.priorVar = s.estVar10 ∧
        Emits [.priorFreq, .priorErr, .priorVar, .fine, .lastAction] [0xF0] s t)

/-- 44_survey R811 with R810 and R813: a fine step that would leave the range ends the survey with MAX or MIN and the current
result, which is also recorded as the prior one. -/
def Obligations.FineBoundaryEndsTheSurvey : Prop :=
  ∀ s : State, s.seq = .proc → s.mode = .survey → s.closeCause = .complete → s.phase = .fine →
    CallsFor s s.dir →
    (currentError s).natAbs ≤ s.priorErr.toInt.natAbs ∨ s.cfg.baud < s.priorErr.toInt.natAbs →
    (s.dir = .up → s.fine = s.cfg.fineMax →
      ∃ t, exec (.fineBoundary .up) s = .next t ∧ t.mode = .finished ∧
        t.priorFreq = s.estFreq ∧ t.priorErr.toInt = currentError s ∧ t.priorVar = s.estVar10 ∧
        Emits [.priorFreq, .priorErr, .priorVar, .mode]
          (0xD1 :: trailer (s.estFreq, s.estVar10) s.fine s.coarse) s t) ∧
    (s.dir = .down → s.fine = 0 →
      ∃ t, exec (.fineBoundary .down) s = .next t ∧ t.mode = .finished ∧
        t.priorFreq = s.estFreq ∧ t.priorErr.toInt = currentError s ∧ t.priorVar = s.estVar10 ∧
        Emits [.priorFreq, .priorErr, .priorVar, .mode]
          (0xD0 :: trailer (s.estFreq, s.estVar10) s.fine s.coarse) s t)

/-- 60_exceptions R911 with 10_state R145 and R146: an expired SURVEY window is answered with ERROR, the search and the
calibration go back to their initial values, and the block is in CONFIGURE. -/
def Obligations.TimeoutAbortsTheSurvey : Prop :=
  ∀ s : State, s.seq = .proc → s.mode = .survey → s.closeCause = .expired →
    ∃ t, exec .surveyTimeout s = .next t ∧ t.mode = .configure ∧ t.coarse = s.cfg.coarseInit ∧
      t.fine = s.cfg.fineInit ∧ t.phase = .coarse ∧ t.dir = .down ∧ t.havePrev = false ∧ t.lastAction = .none ∧
      t.priorFreq = 0 ∧ t.priorErr = 0 ∧ t.priorVar = 0 ∧
      Emits [.mode, .coarse, .fine, .phase, .dir, .havePrev, .lastAction, .priorFreq, .priorErr, .priorVar]
        [0xEE] s t

/-- 44_survey R815 with 30_encoding R331: every PROC_SURVEY step queues one status byte, ERROR exactly for an expired window,
and ten trailer bytes exactly after a terminal one. -/
def Obligations.SurveyStepRepliesOnce : Prop :=
  ∀ s t : State, exec .procSurvey s = .next t →
    ∃ r out, t.txq = s.txq ++ replyByte r :: out ∧
      (replyClass r = .terminal → out.length = 10 ∧ t.mode = .finished) ∧
      (replyClass r ≠ .terminal → out = [] ∧ t.mode ≠ .finished) ∧ replyClass r ≠ .ack ∧
      (r = .error ↔ s.closeCause = .expired)

/-- 44_survey R816: a complete window that ends without a terminal reply uses up part of a bound that is COARSE_MAX + FINE_MAX
when the survey begins, and no step between two windows changes the bound. -/
def Obligations.SurveyTerminates : Prop :=
  (∀ s t : State, Legal s → s.seq = .proc → s.mode = .survey → exec .procSurvey s = .next t → t.mode = .survey →
    surveyBudget t < surveyBudget s) ∧
  (∀ s t : State, exec .cfgSurvey s = .next t → surveyBudget t = s.cfg.coarseMax.toNat + s.cfg.fineMax.toNat) ∧
  (∀ s t : State, s.seq ≠ .proc → ¬ ResetPresented s → step s = .next t → surveyBudget t = surveyBudget s)

-- Replies and the transmitter

/-- 30_encoding R320: each reply instruction queues its byte, in the PROC step of a mode that emits it, and changes nothing
else. -/
def Obligations.RepliesEmitTheirByte : Prop :=
  ∀ (s : State) (i : Instr) (b : Byte) (modes : List Mode),
    (i, b, modes) ∈
      ([(.ack1, 0xA1, [.configure]), (.ack2, 0xA2, [.configure]), (.ack3, 0xA3, [.configure]),
        (.ack4, 0xA4, [.configure]), (.ack5, 0xA5, [.configure]), (.error, 0xEE, [.configure, .survey]),
        (.cdec, 0xC0, [.survey]), (.cinc, 0xC1, [.survey]), (.fdec, 0xF0, [.survey]), (.finc, 0xF1, [.survey]),
        (.min, 0xD0, [.survey]), (.max, 0xD1, [.survey]), (.finish, 0xD2, [.survey])] :
          List (Instr × Byte × List Mode)) →
    s.seq = .proc → s.mode ∈ modes →
    ∃ t, exec i s = .next t ∧ Emits [] [b] s t

/-- 40_transport R401: the oldest byte is output, and the line is high again. -/
def Obligations.TransmitterSendsTheOldestByte : Prop :=
  ∀ (s : State) (b : Byte) (rest : List Byte), s.seq = .tx → s.txq = b :: rest →
    ∃ t, exec .txSend s = .next t ∧ t.txq = rest ∧ t.sent = s.sent ++ [b] ∧ t.txLine = true ∧
      KeepsRegs [.txLine] s t ∧ KeepsSlots [] s t ∧ t.cfg = s.cfg ∧ t.input = s.input

/-- 40_transport R405 with R406: the end of a response re-arms the capture unit, and leaves FINISHED for CONFIGURE. -/
def Obligations.EndOfResponseRearms : Prop :=
  ∀ s : State, s.seq = .tx → s.txq = [] →
    ∃ t, exec .txDone s = .next t ∧ t.mode = (if s.mode = .finished then .configure else s.mode) ∧ t.edgeCnt = 0 ∧
      t.winOpen = false ∧ t.expPol = .falling ∧ t.elapsed = 0 ∧ t.closeCause = .complete ∧ t.ready = false ∧
      t.armed = true ∧ t.seq = .wait ∧
      Emits [.mode, .edgeCnt, .winOpen, .expPol, .elapsed, .closeCause, .ready, .armed, .seq] [] s t

/-- 40_transport R402: a frame is ten levels of BIT_CYCLES each. -/
def Obligations.FrameLastsTenBitTimes : Prop :=
  ∀ (c : Config) (b : Byte), frameCycles c b = 10 * c.bitCycles ∧ (frameWave c b).map Prod.fst = frameLevels b ∧
    (frameWave c b).length = 10 ∧ ∀ l ∈ frameWave c b, l.2 = c.bitCycles

/-- 40_transport R409 and R401, R405: left alone, the transmitter sends a whole response in order, byte by byte, and
re-arms. -/
def Obligations.ResponseIsSentInOrder : Prop :=
  ∀ (s : State), s.seq = .tx → s.input = [] → s.txLine = true →
    Sys2Proof.core.run (s.txq.length + 1) s = .next (endResponse { s with txq := [], sent := s.sent ++ s.txq })

-- Reset

/-- 70_reset_and_hazards R1000 with R1004: in any state RESET puts every register to the reset column, empties TXQ and leaves
the slots. -/
def Obligations.ResetEvent : Prop :=
  ∀ s : State, ∃ t, exec .reset s = .next t ∧ (∀ r, readReg t r = resetColumn s.cfg r) ∧ t.txq = [] ∧
    KeepsSlots [] s t ∧ KeepsOutside s t

/-- 10_state R101 and R152, 20_memory R210, 70_reset_and_hazards R1004: the machine right after power-on, under any
parameters: the reset column, TXQ empty, and a value in [0, 2^CNT_W) in every slot, whichever values they are. The model's own
choices are that State.reset has 0 in every slot (assumption log 5) and the parameters REF (assumption log 1). -/
def Obligations.StateAfterReset : Prop :=
  (∀ (c : Config) (slots : Window),
    (∀ r, readReg (State.resetWith c slots) r = resetColumn c r) ∧ (State.resetWith c slots).txq = [] ∧
      (Memory.wf c.cntW slots = true →
        ∀ i, i < 10 → ∃ v, memRead i (State.resetWith c slots) = .ok v ∧ v.toNat < 2 ^ c.cntW)) ∧
    (∀ (c : Config) (x : Nat → Count), (∀ i, i < 10 → (x i).toNat < 2 ^ c.cntW) →
      ∃ slots, Memory.wf c.cntW slots = true ∧ ∀ i, i < 10 → memRead i (State.resetWith c slots) = .ok (x i)) ∧
    State.reset = State.resetWith Config.ref [] ∧ ∀ i, i < 10 → memRead i State.reset = .ok 0

-- The whole machine

/-- The state after reset is legal under any parameters and whatever the slots hold (10_state R101, R152,
70_reset_and_hazards R1000, R1004). -/
def Obligations.ResetStateIsLegal : Prop :=
  ∀ (c : Config) (slots : Window), Memory.wf c.cntW slots = true → Legal (State.resetWith c slots)

/-- Every step keeps the legal states: registers in range, COARSE and FINE within their bounds, the SampleWindow canonical,
ARMED, READY and TXQ as SEQ says (10_state R101, 44_survey R819, 20_memory R211, 40_transport R404, R407). -/
def Obligations.EveryStepKeepsLegal : Prop := ∀ s t : State, Legal s → step s = .next t → Legal t

/-- From a legal state no step faults: no rule names a slot that does not exist (20_memory R205). And no rule reads a slot
before the window has written it (10_state R152, 20_memory R203): what such a slot holds, at reset or later, changes nothing a
step does, and no output. -/
def Obligations.LegalStatesNeverFault : Prop :=
  (∀ (s : State) (f : Fault), Legal s → step s ≠ .fault f) ∧
    (∀ s t s' : State, Legal s → AgreeButStaleSlots s t → step s = .next s' →
      ∃ t', step t = .next t' ∧ AgreeButStaleSlots s' t')

/-- From a legal state the block never stops of itself: with nothing presented it has a step, and RESET always has one
(00_scope R13, 60_exceptions R916). In SEQ = WAIT that step is the model's idle step, its own choice (assumption log 4):
30_encoding R346 gives no internal step there. -/
def Obligations.BlockNeverStopsByItself : Prop :=
  (∀ s : State, Legal s → (s.input = [] ∨ ∃ later, s.input = [] :: later) → ∃ t, step s = .next t) ∧
    (∀ (s : State) (later : List (List Event)), s.input = [⟨4, 0⟩] :: later → ∃ t, step s = .next t)

/-- 20_memory R202 (and R221): SampleWindow slots are written only with SEQ = WAIT and ARMED = 1, and only the slot that
EDGE_CNT names, or slot 0 at the opening edge. -/
def Obligations.SlotsAreWrittenOnlyByTheCaptureUnit : Prop :=
  ∀ (s t : State) (i : Nat), step s = .next t → memRead i t ≠ memRead i s →
    s.seq = .wait ∧ s.armed = true ∧ (s.winOpen = true ∧ i = s.edgeCnt.toNat ∨ s.winOpen = false ∧ i = 0)

/-- 42_estimator R605 (10_state R130) and 10_state R110, R111: the Estimate registers change only in PROC_SURVEY on a complete
window, COARSE and FINE only in PROC, or at reset; the parameters never. -/
def Obligations.ResultsChangeOnlyInTheirSteps : Prop :=
  ∀ s t : State, step s = .next t →
    ((t.estAvg, t.estFreq, t.estVar10) ≠ (s.estAvg, s.estFreq, s.estVar10) →
      s.seq = .proc ∧ s.mode = .survey ∧ s.closeCause = .complete ∨ ResetPresented s) ∧
    ((t.coarse, t.fine) ≠ (s.coarse, s.fine) → s.seq = .proc ∨ ResetPresented s) ∧ t.cfg = s.cfg

/-- 00_scope R32 with 10_state R101: x[i] and the name of a register are the same storage; a write of a legal value is read
back and leaves the other registers. -/
def Obligations.NumberedRegistersAreTheNamedOnes : Prop :=
  ∀ (s t : State) (i : Nat) (v : Int), writeX s i v = some t →
    i < 24 ∧ readX t i = some v ∧ (∀ j, j ≠ i → readX t j = readX s j) ∧ KeepsSlots [] s t ∧ t.txq = s.txq

/-- 30_encoding R313 with R310: in an armed CONFIGURE window one frame of byte b, its edges within T_CMD, then the expiry,
brings the block to decode the count FallingEdges(b). -/
def Obligations.HostByteIssuesItsCommand : Prop :=
  ∀ (s : State) (b : Byte) (p : Nat), s.seq = .wait → s.armed = true → s.winOpen = false → s.expPol = .falling →
    s.mode = .configure → 1 ≤ p → 9 * p < s.cfg.tCmd →
    s.input = (hostByte b p).map (fun ev => [ev]) ++ [[expireEvent]] →
    ∃ t, Sys2Proof.core.run ((hostByte b p).length + 1) s = .next t ∧ t.seq = .proc ∧ t.mode = .configure ∧
      t.edgeCnt.toNat = fallingEdges b ∧ t.closeCause = .expired ∧ t.target = s.target ∧ t.txq = s.txq ∧ t.input = []

/-- 30_encoding R340 with 42_estimator R601 to R604: in an armed SURVEY window the cadence frame 0x55 with a bit time of P
cycles, shorter than 2^CNT_W and its ten edges within T_WIN, completes the window, and the block measures exactly P. -/
def Obligations.CadenceMeasuresItsBitTime : Prop :=
  ∀ (s : State) (p : Nat), s.seq = .wait → s.armed = true → s.winOpen = false → s.expPol = .falling →
    s.mode = .survey → 1 ≤ p → 9 * p < s.cfg.tWin → p < 2 ^ s.cfg.cntW →
    s.input = (hostByte 0x55 p).map (fun ev => [ev]) →
    ∃ t m, Sys2Proof.core.run 10 s = .next t ∧ t.seq = .proc ∧ t.closeCause = .complete ∧ t.edgeCnt.toNat = 10 ∧
      measureWindow t = .ok m ∧ m.estAvg.toNat = p ∧ m.estFreq.toNat = Nat.min (p * s.cfg.baud) (2 ^ 32 - 1) ∧
      m.estVar10 = 0
end

