-- ==== Sys2Proof/Laws/Arith.lean ====
section
/-! SUPPORT. The laws of the narrowing arithmetic of 00_scope R31. -/

namespace Sys2Proof.Machine

/-- trunc_N gives a value of N bits. -/
theorem trunc_lt (n : Nat) (v : Int) : trunc n v < 2 ^ n := by
  have hp : (0 : Int) < ((2 ^ n : Nat) : Int) := by exact_mod_cast Nat.two_pow_pos n
  have h := Int.emod_lt_of_pos v hp
  have h0 := Int.emod_nonneg v hp.ne'
  unfold trunc
  omega

/-- trunc_N as an integer. -/
theorem trunc_eq (n : Nat) (v : Int) : (trunc n v : Int) = v % ((2 ^ n : Nat) : Int) := by
  have hp : (0 : Int) < ((2 ^ n : Nat) : Int) := by exact_mod_cast Nat.two_pow_pos n
  exact Int.toNat_of_nonneg (Int.emod_nonneg v hp.ne')

/-- trunc_N of a natural number. -/
theorem trunc_natCast (n v : Nat) : trunc n (v : Int) = v % 2 ^ n := by
  have h := trunc_eq n (v : Int)
  omega

/-- CNT_W bits fit in a Count. -/
theorem cntW_pow_le (c : Config) : 2 ^ c.cntW ≤ 2 ^ 32 := Nat.pow_le_pow_right (by decide) c.valid.1.2

/-- The number in a narrowed counter value. -/
theorem truncCount_toNat (c : Config) (v : Int) : (truncCount c v).toNat = trunc c.cntW v := by
  have h := trunc_lt c.cntW v
  have h' := cntW_pow_le c
  simp only [truncCount, BitVec.toNat_ofNat]
  exact Nat.mod_eq_of_lt (by omega)

/-- A narrowed counter value has CNT_W bits. -/
theorem truncCount_lt (c : Config) (v : Int) : (truncCount c v).toNat < 2 ^ c.cntW := by
  rw [truncCount_toNat]; exact trunc_lt _ _

/-- sat_N gives a value of N bits. -/
theorem sat_lt (n v : Nat) : sat n v < 2 ^ n := by
  have := Nat.two_pow_pos n
  unfold sat
  split <;> omega

/-- sat_N as the least of two numbers. -/
theorem sat_eq_min (n v : Nat) : sat n v = Nat.min v (2 ^ n - 1) := by
  unfold sat
  split <;> rename_i h
  · exact (Nat.min_eq_left h).symm
  · exact (Nat.min_eq_right (by omega)).symm

/-- The error of two u32 values lies in the 33-bit range (10_state R129). -/
theorem err_range (s : State) : -4294967295 ≤ err s ∧ err s ≤ 4294967295 := by
  have := s.estFreq.isLt
  have := s.target.isLt
  unfold err
  omega

/-- The prior error keeps the error exactly (44_survey R801). -/
theorem err_toInt (s : State) : (BitVec.ofInt 33 (err s)).toInt = err s := by
  have h := err_range s
  rw [BitVec.toInt_ofInt]
  exact Int.bmod_eq_of_le (by omega) (by omega)

/-- Every duration has CNT_W bits. -/
theorem durations_lt (w : Nat) (xs : List Nat) : ∀ d ∈ durations w xs, d < 2 ^ w := by
  induction xs with
  | nil => simp [durations]
  | cons a rest ih =>
    cases rest with
    | nil => simp [durations]
    | cons b rest =>
      simp only [durations, List.mem_cons, forall_eq_or_imp]
      exact ⟨trunc_lt _ _, ih⟩

/-- n samples leave n − 1 durations. -/
theorem durations_length (w : Nat) (xs : List Nat) : (durations w xs).length = xs.length - 1 := by
  induction xs with
  | nil => simp [durations]
  | cons a rest ih =>
    cases rest with
    | nil => simp [durations]
    | cons b rest => simpa [durations] using ih

end Sys2Proof.Machine
end

