-- ==== Sys2Proof/Laws/State.lean ====
section
/-! SUPPORT. One lemma for each field under each shared update of the state, true by rfl, so that no later proof unfolds a
record update. -/

namespace Sys2Proof.Machine

@[simp] theorem emit_mode (b : Byte) (s : State) : (emit b s).mode = s.mode := rfl
@[simp] theorem emit_seq (b : Byte) (s : State) : (emit b s).seq = s.seq := rfl
@[simp] theorem emit_target (b : Byte) (s : State) : (emit b s).target = s.target := rfl
@[simp] theorem emit_coarse (b : Byte) (s : State) : (emit b s).coarse = s.coarse := rfl
@[simp] theorem emit_fine (b : Byte) (s : State) : (emit b s).fine = s.fine := rfl
@[simp] theorem emit_phase (b : Byte) (s : State) : (emit b s).phase = s.phase := rfl
@[simp] theorem emit_dir (b : Byte) (s : State) : (emit b s).dir = s.dir := rfl
@[simp] theorem emit_havePrev (b : Byte) (s : State) : (emit b s).havePrev = s.havePrev := rfl
@[simp] theorem emit_lastAction (b : Byte) (s : State) : (emit b s).lastAction = s.lastAction := rfl
@[simp] theorem emit_priorFreq (b : Byte) (s : State) : (emit b s).priorFreq = s.priorFreq := rfl
@[simp] theorem emit_priorErr (b : Byte) (s : State) : (emit b s).priorErr = s.priorErr := rfl
@[simp] theorem emit_priorVar (b : Byte) (s : State) : (emit b s).priorVar = s.priorVar := rfl
@[simp] theorem emit_estAvg (b : Byte) (s : State) : (emit b s).estAvg = s.estAvg := rfl
@[simp] theorem emit_estFreq (b : Byte) (s : State) : (emit b s).estFreq = s.estFreq := rfl
@[simp] theorem emit_estVar10 (b : Byte) (s : State) : (emit b s).estVar10 = s.estVar10 := rfl
@[simp] theorem emit_armed (b : Byte) (s : State) : (emit b s).armed = s.armed := rfl
@[simp] theorem emit_winOpen (b : Byte) (s : State) : (emit b s).winOpen = s.winOpen := rfl
@[simp] theorem emit_edgeCnt (b : Byte) (s : State) : (emit b s).edgeCnt = s.edgeCnt := rfl
@[simp] theorem emit_expPol (b : Byte) (s : State) : (emit b s).expPol = s.expPol := rfl
@[simp] theorem emit_cnt (b : Byte) (s : State) : (emit b s).cnt = s.cnt := rfl
@[simp] theorem emit_elapsed (b : Byte) (s : State) : (emit b s).elapsed = s.elapsed := rfl
@[simp] theorem emit_closeCause (b : Byte) (s : State) : (emit b s).closeCause = s.closeCause := rfl
@[simp] theorem emit_ready (b : Byte) (s : State) : (emit b s).ready = s.ready := rfl
@[simp] theorem emit_txLine (b : Byte) (s : State) : (emit b s).txLine = s.txLine := rfl
@[simp] theorem emit_sample (b : Byte) (s : State) : (emit b s).sample = s.sample := rfl
@[simp] theorem emit_txq (b : Byte) (s : State) : (emit b s).txq = s.txq ++ [b] := rfl
@[simp] theorem emit_cfg (b : Byte) (s : State) : (emit b s).cfg = s.cfg := rfl
@[simp] theorem emit_input (b : Byte) (s : State) : (emit b s).input = s.input := rfl
@[simp] theorem emit_sent (b : Byte) (s : State) : (emit b s).sent = s.sent := rfl

@[simp] theorem armWindow_mode (s : State) : (armWindow s).mode = s.mode := rfl
@[simp] theorem armWindow_seq (s : State) : (armWindow s).seq = .wait := rfl
@[simp] theorem armWindow_target (s : State) : (armWindow s).target = s.target := rfl
@[simp] theorem armWindow_coarse (s : State) : (armWindow s).coarse = s.coarse := rfl
@[simp] theorem armWindow_fine (s : State) : (armWindow s).fine = s.fine := rfl
@[simp] theorem armWindow_phase (s : State) : (armWindow s).phase = s.phase := rfl
@[simp] theorem armWindow_dir (s : State) : (armWindow s).dir = s.dir := rfl
@[simp] theorem armWindow_havePrev (s : State) : (armWindow s).havePrev = s.havePrev := rfl
@[simp] theorem armWindow_lastAction (s : State) : (armWindow s).lastAction = s.lastAction := rfl
@[simp] theorem armWindow_priorFreq (s : State) : (armWindow s).priorFreq = s.priorFreq := rfl
@[simp] theorem armWindow_priorErr (s : State) : (armWindow s).priorErr = s.priorErr := rfl
@[simp] theorem armWindow_priorVar (s : State) : (armWindow s).priorVar = s.priorVar := rfl
@[simp] theorem armWindow_estAvg (s : State) : (armWindow s).estAvg = s.estAvg := rfl
@[simp] theorem armWindow_estFreq (s : State) : (armWindow s).estFreq = s.estFreq := rfl
@[simp] theorem armWindow_estVar10 (s : State) : (armWindow s).estVar10 = s.estVar10 := rfl
@[simp] theorem armWindow_armed (s : State) : (armWindow s).armed = true := rfl
@[simp] theorem armWindow_winOpen (s : State) : (armWindow s).winOpen = false := rfl
@[simp] theorem armWindow_edgeCnt (s : State) : (armWindow s).edgeCnt = 0 := rfl
@[simp] theorem armWindow_expPol (s : State) : (armWindow s).expPol = .falling := rfl
@[simp] theorem armWindow_cnt (s : State) : (armWindow s).cnt = s.cnt := rfl
@[simp] theorem armWindow_elapsed (s : State) : (armWindow s).elapsed = 0 := rfl
@[simp] theorem armWindow_closeCause (s : State) : (armWindow s).closeCause = .complete := rfl
@[simp] theorem armWindow_ready (s : State) : (armWindow s).ready = false := rfl
@[simp] theorem armWindow_txLine (s : State) : (armWindow s).txLine = s.txLine := rfl
@[simp] theorem armWindow_sample (s : State) : (armWindow s).sample = s.sample := rfl
@[simp] theorem armWindow_txq (s : State) : (armWindow s).txq = s.txq := rfl
@[simp] theorem armWindow_cfg (s : State) : (armWindow s).cfg = s.cfg := rfl
@[simp] theorem armWindow_input (s : State) : (armWindow s).input = s.input := rfl
@[simp] theorem armWindow_sent (s : State) : (armWindow s).sent = s.sent := rfl

@[simp] theorem closeWindow_mode (c : Close) (s : State) : (closeWindow c s).mode = s.mode := rfl
@[simp] theorem closeWindow_seq (c : Close) (s : State) : (closeWindow c s).seq = .proc := rfl
@[simp] theorem closeWindow_target (c : Close) (s : State) : (closeWindow c s).target = s.target := rfl
@[simp] theorem closeWindow_coarse (c : Close) (s : State) : (closeWindow c s).coarse = s.coarse := rfl
@[simp] theorem closeWindow_fine (c : Close) (s : State) : (closeWindow c s).fine = s.fine := rfl
@[simp] theorem closeWindow_phase (c : Close) (s : State) : (closeWindow c s).phase = s.phase := rfl
@[simp] theorem closeWindow_dir (c : Close) (s : State) : (closeWindow c s).dir = s.dir := rfl
@[simp] theorem closeWindow_havePrev (c : Close) (s : State) : (closeWindow c s).havePrev = s.havePrev := rfl
@[simp] theorem closeWindow_lastAction (c : Close) (s : State) : (closeWindow c s).lastAction = s.lastAction := rfl
@[simp] theorem closeWindow_priorFreq (c : Close) (s : State) : (closeWindow c s).priorFreq = s.priorFreq := rfl
@[simp] theorem closeWindow_priorErr (c : Close) (s : State) : (closeWindow c s).priorErr = s.priorErr := rfl
@[simp] theorem closeWindow_priorVar (c : Close) (s : State) : (closeWindow c s).priorVar = s.priorVar := rfl
@[simp] theorem closeWindow_estAvg (c : Close) (s : State) : (closeWindow c s).estAvg = s.estAvg := rfl
@[simp] theorem closeWindow_estFreq (c : Close) (s : State) : (closeWindow c s).estFreq = s.estFreq := rfl
@[simp] theorem closeWindow_estVar10 (c : Close) (s : State) : (closeWindow c s).estVar10 = s.estVar10 := rfl
@[simp] theorem closeWindow_armed (c : Close) (s : State) : (closeWindow c s).armed = false := rfl
@[simp] theorem closeWindow_winOpen (c : Close) (s : State) : (closeWindow c s).winOpen = s.winOpen := rfl
@[simp] theorem closeWindow_edgeCnt (c : Close) (s : State) : (closeWindow c s).edgeCnt = s.edgeCnt := rfl
@[simp] theorem closeWindow_expPol (c : Close) (s : State) : (closeWindow c s).expPol = s.expPol := rfl
@[simp] theorem closeWindow_cnt (c : Close) (s : State) : (closeWindow c s).cnt = s.cnt := rfl
@[simp] theorem closeWindow_elapsed (c : Close) (s : State) : (closeWindow c s).elapsed = s.elapsed := rfl
@[simp] theorem closeWindow_closeCause (c : Close) (s : State) : (closeWindow c s).closeCause = c := rfl
@[simp] theorem closeWindow_ready (c : Close) (s : State) : (closeWindow c s).ready = true := rfl
@[simp] theorem closeWindow_txLine (c : Close) (s : State) : (closeWindow c s).txLine = s.txLine := rfl
@[simp] theorem closeWindow_sample (c : Close) (s : State) : (closeWindow c s).sample = s.sample := rfl
@[simp] theorem closeWindow_txq (c : Close) (s : State) : (closeWindow c s).txq = s.txq := rfl
@[simp] theorem closeWindow_cfg (c : Close) (s : State) : (closeWindow c s).cfg = s.cfg := rfl
@[simp] theorem closeWindow_input (c : Close) (s : State) : (closeWindow c s).input = s.input := rfl
@[simp] theorem closeWindow_sent (c : Close) (s : State) : (closeWindow c s).sent = s.sent := rfl

@[simp] theorem initSearch_mode (s : State) : (initSearch s).mode = s.mode := rfl
@[simp] theorem initSearch_seq (s : State) : (initSearch s).seq = s.seq := rfl
@[simp] theorem initSearch_target (s : State) : (initSearch s).target = s.target := rfl
@[simp] theorem initSearch_coarse (s : State) : (initSearch s).coarse = s.coarse := rfl
@[simp] theorem initSearch_fine (s : State) : (initSearch s).fine = s.fine := rfl
@[simp] theorem initSearch_phase (s : State) : (initSearch s).phase = .coarse := rfl
@[simp] theorem initSearch_dir (s : State) : (initSearch s).dir = .down := rfl
@[simp] theorem initSearch_havePrev (s : State) : (initSearch s).havePrev = false := rfl
@[simp] theorem initSearch_lastAction (s : State) : (initSearch s).lastAction = .none := rfl
@[simp] theorem initSearch_priorFreq (s : State) : (initSearch s).priorFreq = 0 := rfl
@[simp] theorem initSearch_priorErr (s : State) : (initSearch s).priorErr = 0 := rfl
@[simp] theorem initSearch_priorVar (s : State) : (initSearch s).priorVar = 0 := rfl
@[simp] theorem initSearch_estAvg (s : State) : (initSearch s).estAvg = s.estAvg := rfl
@[simp] theorem initSearch_estFreq (s : State) : (initSearch s).estFreq = s.estFreq := rfl
@[simp] theorem initSearch_estVar10 (s : State) : (initSearch s).estVar10 = s.estVar10 := rfl
@[simp] theorem initSearch_armed (s : State) : (initSearch s).armed = s.armed := rfl
@[simp] theorem initSearch_winOpen (s : State) : (initSearch s).winOpen = s.winOpen := rfl
@[simp] theorem initSearch_edgeCnt (s : State) : (initSearch s).edgeCnt = s.edgeCnt := rfl
@[simp] theorem initSearch_expPol (s : State) : (initSearch s).expPol = s.expPol := rfl
@[simp] theorem initSearch_cnt (s : State) : (initSearch s).cnt = s.cnt := rfl
@[simp] theorem initSearch_elapsed (s : State) : (initSearch s).elapsed = s.elapsed := rfl
@[simp] theorem initSearch_closeCause (s : State) : (initSearch s).closeCause = s.closeCause := rfl
@[simp] theorem initSearch_ready (s : State) : (initSearch s).ready = s.ready := rfl
@[simp] theorem initSearch_txLine (s : State) : (initSearch s).txLine = s.txLine := rfl
@[simp] theorem initSearch_sample (s : State) : (initSearch s).sample = s.sample := rfl
@[simp] theorem initSearch_txq (s : State) : (initSearch s).txq = s.txq := rfl
@[simp] theorem initSearch_cfg (s : State) : (initSearch s).cfg = s.cfg := rfl
@[simp] theorem initSearch_input (s : State) : (initSearch s).input = s.input := rfl
@[simp] theorem initSearch_sent (s : State) : (initSearch s).sent = s.sent := rfl

@[simp] theorem initCal_mode (s : State) : (initCal s).mode = s.mode := rfl
@[simp] theorem initCal_seq (s : State) : (initCal s).seq = s.seq := rfl
@[simp] theorem initCal_target (s : State) : (initCal s).target = s.target := rfl
@[simp] theorem initCal_coarse (s : State) : (initCal s).coarse = s.cfg.coarseInit := rfl
@[simp] theorem initCal_fine (s : State) : (initCal s).fine = s.cfg.fineInit := rfl
@[simp] theorem initCal_phase (s : State) : (initCal s).phase = s.phase := rfl
@[simp] theorem initCal_dir (s : State) : (initCal s).dir = s.dir := rfl
@[simp] theorem initCal_havePrev (s : State) : (initCal s).havePrev = s.havePrev := rfl
@[simp] theorem initCal_lastAction (s : State) : (initCal s).lastAction = s.lastAction := rfl
@[simp] theorem initCal_priorFreq (s : State) : (initCal s).priorFreq = s.priorFreq := rfl
@[simp] theorem initCal_priorErr (s : State) : (initCal s).priorErr = s.priorErr := rfl
@[simp] theorem initCal_priorVar (s : State) : (initCal s).priorVar = s.priorVar := rfl
@[simp] theorem initCal_estAvg (s : State) : (initCal s).estAvg = s.estAvg := rfl
@[simp] theorem initCal_estFreq (s : State) : (initCal s).estFreq = s.estFreq := rfl
@[simp] theorem initCal_estVar10 (s : State) : (initCal s).estVar10 = s.estVar10 := rfl
@[simp] theorem initCal_armed (s : State) : (initCal s).armed = s.armed := rfl
@[simp] theorem initCal_winOpen (s : State) : (initCal s).winOpen = s.winOpen := rfl
@[simp] theorem initCal_edgeCnt (s : State) : (initCal s).edgeCnt = s.edgeCnt := rfl
@[simp] theorem initCal_expPol (s : State) : (initCal s).expPol = s.expPol := rfl
@[simp] theorem initCal_cnt (s : State) : (initCal s).cnt = s.cnt := rfl
@[simp] theorem initCal_elapsed (s : State) : (initCal s).elapsed = s.elapsed := rfl
@[simp] theorem initCal_closeCause (s : State) : (initCal s).closeCause = s.closeCause := rfl
@[simp] theorem initCal_ready (s : State) : (initCal s).ready = s.ready := rfl
@[simp] theorem initCal_txLine (s : State) : (initCal s).txLine = s.txLine := rfl
@[simp] theorem initCal_sample (s : State) : (initCal s).sample = s.sample := rfl
@[simp] theorem initCal_txq (s : State) : (initCal s).txq = s.txq := rfl
@[simp] theorem initCal_cfg (s : State) : (initCal s).cfg = s.cfg := rfl
@[simp] theorem initCal_input (s : State) : (initCal s).input = s.input := rfl
@[simp] theorem initCal_sent (s : State) : (initCal s).sent = s.sent := rfl

@[simp] theorem recordPrior_mode (s : State) : (recordPrior s).mode = s.mode := rfl
@[simp] theorem recordPrior_seq (s : State) : (recordPrior s).seq = s.seq := rfl
@[simp] theorem recordPrior_target (s : State) : (recordPrior s).target = s.target := rfl
@[simp] theorem recordPrior_coarse (s : State) : (recordPrior s).coarse = s.coarse := rfl
@[simp] theorem recordPrior_fine (s : State) : (recordPrior s).fine = s.fine := rfl
@[simp] theorem recordPrior_phase (s : State) : (recordPrior s).phase = s.phase := rfl
@[simp] theorem recordPrior_dir (s : State) : (recordPrior s).dir = s.dir := rfl
@[simp] theorem recordPrior_havePrev (s : State) : (recordPrior s).havePrev = s.havePrev := rfl
@[simp] theorem recordPrior_lastAction (s : State) : (recordPrior s).lastAction = s.lastAction := rfl
@[simp] theorem recordPrior_priorFreq (s : State) : (recordPrior s).priorFreq = s.estFreq := rfl
@[simp] theorem recordPrior_priorErr (s : State) : (recordPrior s).priorErr = BitVec.ofInt 33 (err s) := rfl
@[simp] theorem recordPrior_priorVar (s : State) : (recordPrior s).priorVar = s.estVar10 := rfl
@[simp] theorem recordPrior_estAvg (s : State) : (recordPrior s).estAvg = s.estAvg := rfl
@[simp] theorem recordPrior_estFreq (s : State) : (recordPrior s).estFreq = s.estFreq := rfl
@[simp] theorem recordPrior_estVar10 (s : State) : (recordPrior s).estVar10 = s.estVar10 := rfl
@[simp] theorem recordPrior_armed (s : State) : (recordPrior s).armed = s.armed := rfl
@[simp] theorem recordPrior_winOpen (s : State) : (recordPrior s).winOpen = s.winOpen := rfl
@[simp] theorem recordPrior_edgeCnt (s : State) : (recordPrior s).edgeCnt = s.edgeCnt := rfl
@[simp] theorem recordPrior_expPol (s : State) : (recordPrior s).expPol = s.expPol := rfl
@[simp] theorem recordPrior_cnt (s : State) : (recordPrior s).cnt = s.cnt := rfl
@[simp] theorem recordPrior_elapsed (s : State) : (recordPrior s).elapsed = s.elapsed := rfl
@[simp] theorem recordPrior_closeCause (s : State) : (recordPrior s).closeCause = s.closeCause := rfl
@[simp] theorem recordPrior_ready (s : State) : (recordPrior s).ready = s.ready := rfl
@[simp] theorem recordPrior_txLine (s : State) : (recordPrior s).txLine = s.txLine := rfl
@[simp] theorem recordPrior_sample (s : State) : (recordPrior s).sample = s.sample := rfl
@[simp] theorem recordPrior_txq (s : State) : (recordPrior s).txq = s.txq := rfl
@[simp] theorem recordPrior_cfg (s : State) : (recordPrior s).cfg = s.cfg := rfl
@[simp] theorem recordPrior_input (s : State) : (recordPrior s).input = s.input := rfl
@[simp] theorem recordPrior_sent (s : State) : (recordPrior s).sent = s.sent := rfl

@[simp] theorem writeEstimate_mode (ds : List Nat) (s : State) : (writeEstimate ds s).mode = s.mode := rfl
@[simp] theorem writeEstimate_seq (ds : List Nat) (s : State) : (writeEstimate ds s).seq = s.seq := rfl
@[simp] theorem writeEstimate_target (ds : List Nat) (s : State) : (writeEstimate ds s).target = s.target := rfl
@[simp] theorem writeEstimate_coarse (ds : List Nat) (s : State) : (writeEstimate ds s).coarse = s.coarse := rfl
@[simp] theorem writeEstimate_fine (ds : List Nat) (s : State) : (writeEstimate ds s).fine = s.fine := rfl
@[simp] theorem writeEstimate_phase (ds : List Nat) (s : State) : (writeEstimate ds s).phase = s.phase := rfl
@[simp] theorem writeEstimate_dir (ds : List Nat) (s : State) : (writeEstimate ds s).dir = s.dir := rfl
@[simp] theorem writeEstimate_havePrev (ds : List Nat) (s : State) : (writeEstimate ds s).havePrev = s.havePrev := rfl
@[simp] theorem writeEstimate_lastAction (ds : List Nat) (s : State) : (writeEstimate ds s).lastAction = s.lastAction := rfl
@[simp] theorem writeEstimate_priorFreq (ds : List Nat) (s : State) : (writeEstimate ds s).priorFreq = s.priorFreq := rfl
@[simp] theorem writeEstimate_priorErr (ds : List Nat) (s : State) : (writeEstimate ds s).priorErr = s.priorErr := rfl
@[simp] theorem writeEstimate_priorVar (ds : List Nat) (s : State) : (writeEstimate ds s).priorVar = s.priorVar := rfl
@[simp] theorem writeEstimate_estAvg (ds : List Nat) (s : State) : (writeEstimate ds s).estAvg = BitVec.ofNat 32 (average ds) := rfl
@[simp] theorem writeEstimate_estFreq (ds : List Nat) (s : State) : (writeEstimate ds s).estFreq = BitVec.ofNat 32 (frequency s.cfg ds) := rfl
@[simp] theorem writeEstimate_estVar10 (ds : List Nat) (s : State) : (writeEstimate ds s).estVar10 = BitVec.ofNat 32 (variance10 ds) := rfl
@[simp] theorem writeEstimate_armed (ds : List Nat) (s : State) : (writeEstimate ds s).armed = s.armed := rfl
@[simp] theorem writeEstimate_winOpen (ds : List Nat) (s : State) : (writeEstimate ds s).winOpen = s.winOpen := rfl
@[simp] theorem writeEstimate_edgeCnt (ds : List Nat) (s : State) : (writeEstimate ds s).edgeCnt = s.edgeCnt := rfl
@[simp] theorem writeEstimate_expPol (ds : List Nat) (s : State) : (writeEstimate ds s).expPol = s.expPol := rfl
@[simp] theorem writeEstimate_cnt (ds : List Nat) (s : State) : (writeEstimate ds s).cnt = s.cnt := rfl
@[simp] theorem writeEstimate_elapsed (ds : List Nat) (s : State) : (writeEstimate ds s).elapsed = s.elapsed := rfl
@[simp] theorem writeEstimate_closeCause (ds : List Nat) (s : State) : (writeEstimate ds s).closeCause = s.closeCause := rfl
@[simp] theorem writeEstimate_ready (ds : List Nat) (s : State) : (writeEstimate ds s).ready = s.ready := rfl
@[simp] theorem writeEstimate_txLine (ds : List Nat) (s : State) : (writeEstimate ds s).txLine = s.txLine := rfl
@[simp] theorem writeEstimate_sample (ds : List Nat) (s : State) : (writeEstimate ds s).sample = s.sample := rfl
@[simp] theorem writeEstimate_txq (ds : List Nat) (s : State) : (writeEstimate ds s).txq = s.txq := rfl
@[simp] theorem writeEstimate_cfg (ds : List Nat) (s : State) : (writeEstimate ds s).cfg = s.cfg := rfl
@[simp] theorem writeEstimate_input (ds : List Nat) (s : State) : (writeEstimate ds s).input = s.input := rfl
@[simp] theorem writeEstimate_sent (ds : List Nat) (s : State) : (writeEstimate ds s).sent = s.sent := rfl

end Sys2Proof.Machine
end

