-- ==== Sys2Proof/Laws/Memory.lean ====
section
/-! SUPPORT. The laws of the SampleWindow: a read after a write, and the canonical form under every write. -/

namespace Sys2Proof.Machine

/-- A slot reads as it was listed, and every other slot as before. -/
theorem Memory.read_insert (i j : Nat) (v : Count) (m : Window) :
    Memory.read j (Memory.insert i v m) = if j = i then v else Memory.read j m := by
  induction m with
  | nil => rfl
  | cons p rest ih =>
    obtain ⟨k, u⟩ := p
    simp only [Memory.insert]
    split
    · subst i; by_cases h : j = k <;> simp [Memory.read, h]
    · split
      · simp only [Memory.read]
      · by_cases h : j = k
        · subst h; simp [Memory.read, Ne.symm ‹¬i = j›]
        · simp [Memory.read, h, ih]

/-- A slot taken out of the list reads as unlisted, and every other slot as before. -/
theorem Memory.read_filter (i j : Nat) (m : Window) :
    Memory.read j (m.filter (fun p => p.1 != i)) = if j = i then Memory.unlisted else Memory.read j m := by
  induction m with
  | nil => simp [Memory.read]
  | cons p rest ih =>
    obtain ⟨k, u⟩ := p
    by_cases hk : k = i
    · subst hk; simp only [List.filter, bne_self_eq_false, ih, Memory.read]; split <;> simp_all
    · simp only [List.filter, bne_iff_ne.mpr hk, Memory.read, ih]
      by_cases h : j = k
      · subst h; simp [hk]
      · simp [h]

/-- A slot reads as it was written, and every other slot as before, in every list. -/
theorem Memory.read_write (i j : Nat) (v : Count) (m : Window) :
    Memory.read j (Memory.write i v m) = if j = i then v else Memory.read j m := by
  unfold Memory.write
  split
  · subst v; exact Memory.read_filter i j m
  · exact Memory.read_insert i j v m

/-- A listing that starts higher is a listing. -/
theorem Memory.risingFrom_mono (w n k : Nat) (m : Window) (hn : n ≤ k) (hm : Memory.risingFrom w k m = true) :
    Memory.risingFrom w n m = true := by
  cases m with
  | nil => rfl
  | cons p rest =>
    simp only [Memory.risingFrom, Bool.and_eq_true, decide_eq_true_eq] at hm ⊢
    exact ⟨⟨hn.trans hm.1.1, hm.1.2⟩, hm.2⟩

/-- Listing a slot keeps the indices rising, in range, and the values narrow. -/
theorem Memory.risingFrom_insert (w n i : Nat) (v : Count) (m : Window) (hn : n ≤ i) (hi : i < nSamples)
    (hv : v.toNat < 2 ^ w) (h0 : v ≠ Memory.unlisted) (hm : Memory.risingFrom w n m = true) :
    Memory.risingFrom w n (Memory.insert i v m) = true := by
  induction m generalizing n with
  | nil => simp [Memory.insert, Memory.risingFrom, hn, hi, hv, h0]
  | cons p rest ih =>
    obtain ⟨k, u⟩ := p
    simp only [Memory.risingFrom, Bool.and_eq_true, decide_eq_true_eq] at hm
    obtain ⟨⟨hk, hu⟩, hr⟩ := hm
    simp only [Memory.insert]
    split
    · subst i; simp [Memory.risingFrom, hn, hi, hv, h0, hr]
    · split
      · simp only [Memory.risingFrom, Bool.and_eq_true, decide_eq_true_eq]
        exact ⟨⟨hn, hi, hv, h0⟩, ⟨by omega, hu⟩, hr⟩
      · simp only [Memory.risingFrom, Bool.and_eq_true, decide_eq_true_eq]
        exact ⟨⟨hk, hu⟩, ih (k + 1) (by omega) hr⟩

/-- Taking slots out of the list keeps it so. -/
theorem Memory.risingFrom_filter (w n : Nat) (keep : Nat × Count → Bool) (m : Window)
    (hm : Memory.risingFrom w n m = true) : Memory.risingFrom w n (m.filter keep) = true := by
  induction m generalizing n with
  | nil => rfl
  | cons p rest ih =>
    simp only [Memory.risingFrom, Bool.and_eq_true, decide_eq_true_eq] at hm
    rw [List.filter_cons]
    split
    · simp only [Memory.risingFrom, Bool.and_eq_true, decide_eq_true_eq]
      exact ⟨hm.1, ih _ hm.2⟩
    · exact ih n (Memory.risingFrom_mono w n _ rest (by omega) hm.2)

/-- Every write of a slot that exists, of a value of CNT_W bits, keeps the canonical form (20_memory R201, R205). -/
theorem Memory.wf_write (w i : Nat) (v : Count) (m : Window) (hi : i < nSamples) (hv : v.toNat < 2 ^ w)
    (hm : Memory.wf w m = true) : Memory.wf w (Memory.write i v m) = true := by
  unfold Memory.write
  split
  · exact Memory.risingFrom_filter w 0 _ m hm
  · exact Memory.risingFrom_insert w 0 i v m (Nat.zero_le i) hi hv ‹_› hm

/-- In a canonical window every slot has a value of CNT_W bits. -/
theorem Memory.read_lt (w n i : Nat) (m : Window) (hm : Memory.risingFrom w n m = true) :
    (Memory.read i m).toNat < 2 ^ w := by
  induction m generalizing n with
  | nil => exact Nat.two_pow_pos w
  | cons p rest ih =>
    simp only [Memory.risingFrom, Bool.and_eq_true, decide_eq_true_eq] at hm
    simp only [Memory.read]
    split
    · exact hm.1.2.2.1
    · exact ih _ hm.2

/-- The window of State.reset is canonical, for every width. -/
theorem Memory.wf_reset (w : Nat) : Memory.wf w State.reset.sample = true := rfl

/-- MemRead of a slot that exists answers its value. -/
theorem memRead_of_lt (i : Nat) (s : State) (h : i < nSamples) : memRead i s = .ok (Memory.read i s.sample) := if_pos h

/-- MemRead after MemWrite (00_scope R33). -/
theorem memRead_memWrite (i j : Nat) (v : Count) (s t : State) (h : memWrite i v s = .ok t) :
    memRead j t = if j = i then .ok v else memRead j s := by
  unfold memWrite at h
  split at h
  · cases h
    by_cases hj : j = i
    · subst hj; simp [memRead, Memory.read_write, *]
    · simp [memRead, Memory.read_write, hj]
  · cases h

/-- What MemWrite does when it answers a state: it writes one slot that exists. -/
theorem memWrite_ok (i : Nat) (v : Count) (s t : State) (h : memWrite i v s = .ok t) :
    i < nSamples ∧ t = { s with sample := Memory.write i v s.sample } := by
  unfold memWrite at h
  split at h
  · cases h; exact ⟨‹_›, rfl⟩
  · cases h

/-- MemWrite of a slot that exists answers a state. -/
theorem memWrite_of_lt (i : Nat) (v : Count) (s : State) (h : i < nSamples) :
    memWrite i v s = .ok { s with sample := Memory.write i v s.sample } := if_pos h

/-- MemRead looks at the window only. -/
theorem memRead_congr (i : Nat) (s t : State) (h : t.sample = s.sample) : memRead i t = memRead i s := by
  simp [memRead, h]

end Sys2Proof.Machine
end

