-- ==== Sys2Proof/Laws/Ops.lean ====
section
/-! SUPPORT. For each shared operation one lemma that says once everything it can do. -/

namespace Sys2Proof.Machine

/-- An answer of a guarded instruction is its effect, under its condition. -/
theorem onlyIf_next (b : Bool) (r : Refusal) (s t : State) : onlyIf b r s = .next t ↔ b = true ∧ t = s := by
  cases b <;> simp [onlyIf, eq_comm]

/-- A guarded instruction never faults. -/
theorem onlyIf_fault (b : Bool) (r : Refusal) (s : State) (f : Fault) : onlyIf b r s ≠ .fault f := by
  cases b <;> simp [onlyIf]

/-- Emit changes TXQ only. -/
theorem emitAll_eq (bs : List Byte) (s : State) : emitAll bs s = { s with txq := s.txq ++ bs } := by
  induction bs generalizing s with
  | nil => simp [emitAll]
  | cons b rest ih =>
    have h : emitAll (b :: rest) s = emitAll rest (emit b s) := rfl
    rw [h, ih]
    simp [emit]

/-- Terminal writes TXQ and MODE only. -/
theorem terminal_eq (r : Reply) (res : BitVec 32 × BitVec 32) (s : State) :
    terminal r res s =
      { s with txq := s.txq ++ replyByte r :: trailer res s.fine s.coarse, mode := .finished } := by
  simp [terminal, emitAll_eq, emitReply, emit]

/-- A trailer has ten bytes. -/
theorem trailer_length (res : BitVec 32 × BitVec 32) (f c : Byte) : (trailer res f c).length = 10 := rfl

/-- Driving the line changes TX_LINE only. -/
theorem driveLine_eq (ls : List Bool) (s : State) : ∃ l, driveLine ls s = { s with txLine := l } := by
  induction ls generalizing s with
  | nil => exact ⟨s.txLine, rfl⟩
  | cons a rest ih =>
    obtain ⟨l, h⟩ := ih { s with txLine := a }
    exact ⟨l, h⟩

/-- TX_SEND writes TXQ, TX_LINE (high) and the bytes sent. -/
theorem sendByte_eq (b : Byte) (rest : List Byte) (s : State) :
    sendByte b rest s = { s with txq := rest, txLine := true, sent := s.sent ++ [b] } := by
  obtain ⟨l, h⟩ := driveLine_eq (frameLevels b) { s with txq := rest }
  simp [sendByte, h]

/-- TX_DONE is ArmWindow, in CONFIGURE where the mode was FINISHED. -/
theorem endResponse_eq (s : State) :
    endResponse s = armWindow { s with mode := if s.mode = .finished then .configure else s.mode } := by
  unfold endResponse
  split <;> rfl


/-- Slots read one after another give their numbers. -/
theorem readSlots_ok (s : State) (x : Nat → Nat) (is : List Nat)
    (h : ∀ i ∈ is, ∃ v, memRead i s = .ok v ∧ v.toNat = x i) : readSlots s is = .ok (is.map x) := by
  induction is with
  | nil => rfl
  | cons i rest ih =>
    obtain ⟨v, hv, hx⟩ := h i (by simp)
    simp [readSlots, hv, hx, ih (fun j hj => h j (by simp [hj]))]

/-- The numbers in the nine slots that the estimator keeps (42_estimator R601). -/
def keptValues (s : State) : List Nat := keptSlots.map (fun i => (Memory.read i s.sample).toNat)

/-- The nine kept slots can always be read. -/
theorem readSlots_kept (s : State) : readSlots s keptSlots = .ok (keptValues s) :=
  readSlots_ok s _ keptSlots fun i hi =>
    ⟨_, memRead_of_lt i s ((show ∀ j ∈ keptSlots, j < nSamples by decide) i hi), rfl⟩

/-- What ESTIMATE does, in every state. -/
theorem estimate_eq (s : State) :
    estimate s = .ok (writeEstimate (durations s.cfg.cntW (keptValues s)) s) := by
  simp [estimate, readSlots_kept]

/-- What the sequencer does with a closed SURVEY window before it selects an outcome, in every state. -/
theorem measureWindow_eq (s : State) :
    measureWindow s = .ok (match s.closeCause with
      | .expired => { s with ready := false }
      | .complete => writeEstimate (durations s.cfg.cntW (keptValues s)) { s with ready := false }) := by
  unfold measureWindow
  cases s.closeCause
  · exact estimate_eq _
  · rfl

/-- A complete window is estimated. -/
theorem measureWindow_of_complete (s : State) (h : s.closeCause = .complete) :
    measureWindow s = .ok (writeEstimate (durations s.cfg.cntW (keptValues s)) { s with ready := false }) := by
  rw [measureWindow_eq, h]

/-- An expired window is not estimated. -/
theorem measureWindow_of_expired (s : State) (h : s.closeCause = .expired) :
    measureWindow s = .ok { s with ready := false } := by rw [measureWindow_eq, h]

/-- What the opening edge does. -/
theorem openWindow_eq (s : State) :
    openWindow s = .ok { s with
      cnt := 0, elapsed := 0, sample := Memory.write 0 0 s.sample, edgeCnt := 1, winOpen := true,
      expPol := nextPolarity s } := rfl

/-- The value a later edge stores (41_capture R505). -/
def capturedValue (e : Nat) (s : State) : Count :=
  truncCount s.cfg (((truncCount s.cfg (e : Int)).toNat : Int) - (s.cfg.latBias : Int))

/-- What a later edge writes, before a tenth edge closes the window. -/
def captured (e : Nat) (s : State) : State :=
  { s with
    elapsed := e, cnt := truncCount s.cfg (e : Int)
    sample := Memory.write s.edgeCnt.toNat (capturedValue e s) s.sample
    edgeCnt := s.edgeCnt + 1, expPol := nextPolarity s }

/-- What a later edge does: the tenth closes the window, and no slot above 9 exists. -/
theorem captureEdge_eq (e : Nat) (s : State) :
    captureEdge e s =
      if s.edgeCnt.toNat < 9 then .ok (captured e s)
      else if s.edgeCnt.toNat = 9 then .ok (closeWindow .complete (captured e s))
      else .error (.noSuchSlot s.edgeCnt.toNat) := by
  have hb := s.edgeCnt.isLt
  by_cases h : s.edgeCnt.toNat < 10
  · have hw := memWrite_of_lt s.edgeCnt.toNat (capturedValue e s)
      { s with elapsed := e, cnt := truncCount s.cfg (e : Int) } h
    have hc : (s.edgeCnt + 1).toNat = s.edgeCnt.toNat + 1 := by
      rw [BitVec.toNat_add]; simp; omega
    unfold captureEdge
    simp only [capturedValue] at hw
    simp only [hw, hc, nSamples]
    by_cases h9 : s.edgeCnt.toNat = 9
    · simp [h9, captured, capturedValue]
    · have hlt : s.edgeCnt.toNat < 9 := by omega
      simp [h9, hlt, captured, capturedValue]
  · have hw : memWrite s.edgeCnt.toNat (capturedValue e s) { s with elapsed := e, cnt := truncCount s.cfg (e : Int) }
        = .error (.noSuchSlot s.edgeCnt.toNat) := by simp [memWrite, nSamples, h]
    unfold captureEdge
    simp only [capturedValue] at hw
    simp [hw, show ¬ s.edgeCnt.toNat < 9 by omega, show ¬ s.edgeCnt.toNat = 9 by omega]

/-- An edge is ignored or meets the conditions of R502. -/
theorem edgeIgnored_eq_false (p : Polarity) (s : State) :
    edgeIgnored p s = false ↔ s.seq = .wait ∧ s.armed = true ∧ s.expPol = p := by
  simp only [edgeIgnored, Bool.or_eq_false_iff, bne_eq_false_iff_eq, Bool.not_eq_false', and_assoc]
  exact ⟨fun ⟨a, b, c⟩ => ⟨a, b, c.symm⟩, fun ⟨a, b, c⟩ => ⟨a, b, c.symm⟩⟩

/-- What a CAP_NEXT answers when it answers a state. -/
theorem nextEdge_next (p : Polarity) (e : Nat) (s t : State) (h : nextEdge p e s = .next t) :
    t = s ∨ (edgeIgnored p s = false ∧ s.winOpen = true ∧
      ∃ l, limit s.cfg s.mode = some l ∧ s.elapsed < e ∧ e < l ∧ captureEdge e s = .ok t) := by
  unfold nextEdge at h
  split at h
  · cases h; exact .inl rfl
  · rename_i hi
    split at h
    · rename_i hw
      split at h
      · cases h
      · rename_i l hl
        split at h
        · cases h
        · split at h
          · cases h
          · refine .inr ⟨by simpa using hi, hw, l, hl, by omega, by omega, ?_⟩
            revert h
            cases captureEdge e s <;> simp [orFault]
    · cases h

/-- What CAP_OPEN answers when it answers a state. -/
theorem execCapOpen_next (e : Nat) (s t : State) (h : execCapOpen e s = .next t) :
    t = s ∨ (edgeIgnored .falling s = false ∧ s.winOpen = false ∧ openWindow s = .ok t) := by
  unfold execCapOpen at h
  split at h
  · cases h; exact .inl rfl
  · rename_i hi
    split at h
    · cases h
    · rename_i hw
      refine .inr ⟨by simpa using hi, by simpa using hw, ?_⟩
      revert h
      cases openWindow s <;> simp [orFault]

/-- PROC_CONFIGURE answers the decoded command's effect, with READY consumed and SEQ <- TX. -/
theorem execProcConfigure_next (s t : State) (h : execProcConfigure s = .next t) :
    procConfigures s = true ∧ ∃ i u, decode (tableCtx s) ⟨.cmdCount, s.edgeCnt.setWidth 8, 0⟩ = .ok i ∧
      applyCommand i { s with ready := false } = some u ∧ t = { u with seq := .tx } := by
  unfold execProcConfigure at h
  split at h
  · split at h
    · cases h
    · split at h
      · cases h
      · cases h; exact ⟨‹_›, _, _, ‹_›, ‹_›, rfl⟩
  · cases h

/-- PROC_SURVEY answers the selected outcome's effect on the measured state, with SEQ <- TX. -/
theorem execProcSurvey_next (s t : State) (h : execProcSurvey s = .next t) :
    procSurveys s = true ∧ ∃ m, measureWindow s = .ok m ∧
      t = { applyOutcome (selectOutcome m) m with seq := .tx } := by
  unfold execProcSurvey at h
  split at h
  · split at h
    · cases h
    · cases h; exact ⟨‹_›, _, ‹_›, rfl⟩
  · cases h

/-- TX_SEND answers a state only for a byte at the head of TXQ. -/
theorem execTxSend_next (s t : State) (h : execTxSend s = .next t) :
    s.seq = .tx ∧ ∃ b rest, s.txq = b :: rest ∧ t = sendByte b rest s := by
  unfold execTxSend at h
  split at h <;> cases h
  exact ⟨‹_›, _, _, ‹_›, rfl⟩

/-- PROC_SURVEY on a measured window. -/
theorem execProcSurvey_of_measured (s m : State) (hp : procSurveys s = true) (hm : measureWindow s = .ok m) :
    execProcSurvey s = .next { applyOutcome (selectOutcome m) m with seq := .tx } := by
  unfold execProcSurvey
  rw [if_pos hp, hm]

/-- An error below 0 calls for UP. -/
theorem dirOf_of_lt (s : State) (h : s.estFreq.toNat < s.target.toNat) : dirOf (err s) = some .up := by
  have : err s < 0 := by unfold err; omega
  simp [dirOf, this]

/-- An error above 0 calls for DOWN. -/
theorem dirOf_of_gt (s : State) (h : s.target.toNat < s.estFreq.toNat) : dirOf (err s) = some .down := by
  have h1 : ¬ err s < 0 := by unfold err; omega
  have h2 : 0 < err s := by unfold err; omega
  simp [dirOf, h1, h2]

/-- An error of 0 calls for no direction. -/
theorem dirOf_of_eq (s : State) (h : s.estFreq = s.target) : dirOf (err s) = none := by simp [dirOf, err, h]

/-- What each configure command does: one acknowledgement, and at most TARGET, the search registers, the calibration and
MODE. -/
theorem applyCommand_eq (i : Instr) (s t : State) (h : applyCommand i s = some t) :
    t = shiftInOne s ∨ t = shiftInZero s ∨ t = beginSurvey s ∨ t = resetSearch s ∨ t = doNothing s ∨
      t = emitReply .error s := by
  cases i <;> simp [applyCommand] at h <;> subst h <;> simp [raiseInvalidCommand]

/-- What a later edge answers when it answers a state: the tenth closes the window. -/
theorem captureEdge_ok (e : Nat) (s t : State) (h : captureEdge e s = .ok t) :
    (t = captured e s ∧ s.edgeCnt.toNat < 9) ∨ (t = closeWindow .complete (captured e s) ∧ s.edgeCnt.toNat = 9) := by
  rw [captureEdge_eq] at h
  split at h
  · cases h; exact .inl ⟨rfl, ‹_›⟩
  · split at h <;> cases h
    exact .inr ⟨rfl, ‹_›⟩

/-- Measuring a window writes READY and the Estimate only. -/
theorem measureWindow_fields (s m : State) (h : measureWindow s = .ok m) :
    ∃ a f v, m = { s with ready := false, estAvg := a, estFreq := f, estVar10 := v } := by
  rw [measureWindow_eq] at h
  cases h
  cases s.closeCause
  · exact ⟨_, _, _, rfl⟩
  · exact ⟨_, _, _, rfl⟩

/-- What no configure command writes. -/
theorem applyCommand_keeps (i : Instr) (s t : State) (h : applyCommand i s = some t) :
    t = { s with
      mode := t.mode, target := t.target, coarse := t.coarse, fine := t.fine, phase := t.phase, dir := t.dir
      havePrev := t.havePrev, lastAction := t.lastAction, priorFreq := t.priorFreq, priorErr := t.priorErr
      priorVar := t.priorVar, txq := t.txq } := by
  rcases applyCommand_eq i s t h with rfl | rfl | rfl | rfl | rfl | rfl <;> rfl

/-- What no survey outcome writes. -/
theorem applyOutcome_keeps (o : SurveyOutcome) (s t : State) (h : applyOutcome o s = t) :
    t = { s with
      mode := t.mode, coarse := t.coarse, fine := t.fine, phase := t.phase, dir := t.dir, havePrev := t.havePrev
      lastAction := t.lastAction, priorFreq := t.priorFreq, priorErr := t.priorErr, priorVar := t.priorVar
      txq := t.txq } := by
  subst h
  cases o <;> simp only [applyOutcome, hitExactly, moveCoarse, endCoarse, bracketCoarse, rollBackFine, crossFine,
    continueFine, endFine, reachBoundary, fineMove, terminal_eq, raiseWindowTimeout]
  case coarseMove d => cases d <;> rfl
  case coarseBracket d => split <;> cases d <;> rfl
  case fineRollback => cases s.lastAction <;> rfl
  case fineContinue d => cases d <;> rfl
  all_goals rfl

/-- The boundary outcome looks at no slot. -/
theorem reachBoundary_sample (d : Dir) (s : State) (m : Window) :
    reachBoundary d { s with sample := m } = { reachBoundary d s with sample := m } := by
  simp only [reachBoundary, terminal_eq]; rfl

/-- A fine step looks at no slot. -/
theorem stepFine_sample (d : Dir) (s : State) (m : Window) :
    stepFine d { s with sample := m } = { stepFine d s with sample := m } := by cases d <;> rfl

/-- FINE_MOVE looks at no slot. -/
theorem fineMove_sample (s : State) (m : Window) :
    fineMove { s with sample := m } = { fineMove s with sample := m } := by
  have e : fineAtEnd ({ s with sample := m } : State).dir { s with sample := m } = fineAtEnd s.dir s := rfl
  unfold fineMove
  rw [e]
  split
  · exact reachBoundary_sample s.dir s m
  · exact stepFine_sample s.dir s m

/-- No survey outcome looks at a slot. -/
theorem applyOutcome_sample (o : SurveyOutcome) (s : State) (m : Window) :
    applyOutcome o { s with sample := m } = { applyOutcome o s with sample := m } := by
  cases o with
  | exactHit => simp only [applyOutcome, hitExactly, terminal_eq]; rfl
  | coarseMove d => cases d <;> rfl
  | coarseBoundary d => exact reachBoundary_sample d { s with dir := d } m
  | coarseBracket d => exact fineMove_sample (recordPrior { s with phase := .fine, dir := d }) m
  | fineRollback =>
    simp only [applyOutcome, rollBackFine, terminal_eq]
    cases s.lastAction <;> rfl
  | fineCross => simp only [applyOutcome, crossFine, terminal_eq]; rfl
  | fineContinue d => exact stepFine_sample d (recordPrior s) m
  | fineBoundary d => exact reachBoundary_sample d (recordPrior s) m
  | timeout => rfl

/-- The timeout is the outcome of the expired windows, and of no other. -/
theorem selectOutcome_timeout (s : State) : selectOutcome s = .timeout ↔ s.closeCause = .expired := by
  unfold selectOutcome
  cases s.closeCause <;> simp
  cases dirOf (err s) <;> simp
  cases s.phase <;> simp [coarseChoice, fineChoice] <;> split <;> (try split) <;> (try split) <;> simp

end Sys2Proof.Machine
end

