-- ==== Sys2Proof/Laws/Step.lean ====
section
/-! SUPPORT. What one step can do, said once: the instruction it may run, and the effect it may have. Every invariant of the
machine follows from step_effect without unfolding step. -/

namespace Sys2Proof.Machine

/-- An outcome's instruction has the outcome's effect where PROC_SURVEY selects it, and no step elsewhere. -/
theorem exec_outcomeInstr (o : SurveyOutcome) (s : State) :
    exec (outcomeInstr o) s = if selected o s then .next (applyOutcome o s) else .refused .notSelected := by
  cases o <;> rfl

/-- The instructions of an event, and the internal steps that SEQ and MODE select: what a step may run. -/
inductive Runs (s : State) : Instr → Prop where
  | capOpen (e : Nat) : Runs s (.capOpen e)
  | capNextF (e : Nat) : Runs s (.capNextF e)
  | capNextR (e : Nat) : Runs s (.capNextR e)
  | capExpire : Runs s .capExpire
  | reset (h : ResetPresented s) : Runs s .reset
  | procConfigure (h : s.seq = .proc ∧ s.mode = .configure) : Runs s .procConfigure
  | procSurvey (h : s.seq = .proc ∧ s.mode = .survey) : Runs s .procSurvey
  | txSend (h : s.seq = .tx ∧ s.txq ≠ []) : Runs s .txSend
  | txDone (h : s.seq = .tx ∧ s.txq = []) : Runs s .txDone

/-- What is taken of an instant is one of its events. -/
theorem takeEvent_mem (now rest : List Event) (ev : Event) (h : takeEvent now = some (ev, rest)) : ev ∈ now := by
  have key : ∀ (q : Event → Bool) (x : Event × List Event), takeBy q now = some x → x.1 ∈ now := by
    intro q x hx
    obtain ⟨y, hy, rfl⟩ := Option.map_eq_some_iff.mp hx
    exact List.mem_of_find?_eq_some hy
  unfold takeEvent at h
  split at h
  · cases h; exact key _ _ ‹_›
  · split at h
    · cases h; exact key _ (ev, _) ‹_›
    · split at h
      · cases h; exact key _ _ ‹_›
      · exact key _ _ h

/-- The internal step of a state is the one that SEQ and MODE select. -/
theorem fetchInternal_eq (s : State) :
    fetchInternal s =
      match s.seq, s.mode with
      | .wait, _ => .idle s
      | .proc, .configure => .run .procConfigure s
      | .proc, .survey => .run .procSurvey s
      | .proc, .finished => .reject (.noSuchStep 6)
      | .tx, _ => .run (if s.txq = [] then .txDone else .txSend) s := by
  cases hs : s.seq <;> cases hm : s.mode <;> by_cases hq : s.txq = [] <;>
    simp [fetchInternal, hs, hm, hq, decodeIn, stepWord, selector, decode, decodeStep, Seq.code, Mode.code, tableCtx]

/-- An event that the block takes runs one of the capture instructions or, where one was presented, a reset. -/
theorem decodeIn_event (s u v : State) (ev : Event) (i : Instr) (hr : ev.code = 4 → ResetPresented s)
    (h : decodeIn u (eventWord ev) = .run i v) : v = u ∧ Runs s i := by
  obtain ⟨c, e⟩ := ev
  have hc : c = 0 ∨ c = 1 ∨ c = 2 ∨ c = 3 ∨ c = 4 ∨ c = 5 ∨ c = 6 ∨ c = 7 := by
    clear hr h; revert c; decide
  rcases hc with rfl | rfl | rfl | rfl | rfl | rfl | rfl | rfl <;>
    simp only [decodeIn, eventWord, decode] at h
  · cases hw : u.winOpen <;> simp [decodeEvent, tableCtx, hw] at h <;> obtain ⟨rfl, rfl⟩ := h
    · exact ⟨rfl, .capOpen e⟩
    · exact ⟨rfl, .capNextF e⟩
  · simp [decodeEvent] at h; obtain ⟨rfl, rfl⟩ := h; exact ⟨rfl, .capNextR e⟩
  · by_cases he : e = 0 <;> simp [decodeEvent, he] at h; obtain ⟨rfl, rfl⟩ := h; exact ⟨rfl, .capExpire⟩
  · simp [decodeEvent] at h
  · by_cases he : e = 0 <;> simp [decodeEvent, he] at h; obtain ⟨rfl, rfl⟩ := h; exact ⟨rfl, .reset (hr rfl)⟩
  · simp [decodeEvent] at h
  · simp [decodeEvent] at h
  · simp [decodeEvent] at h

/-- The internal step runs what SEQ and MODE select; the events to come make no difference. -/
theorem fetchInternal_run (s u v : State) (i : Instr) (h1 : u.seq = s.seq) (h2 : u.mode = s.mode) (h3 : u.txq = s.txq)
    (h : fetchInternal s = .run i v) : v = s ∧ Runs u i := by
  rw [fetchInternal_eq] at h
  split at h <;> cases h <;> refine ⟨rfl, ?_⟩
  · exact .procConfigure ⟨by simp_all, by simp_all⟩
  · exact .procSurvey ⟨by simp_all, by simp_all⟩
  · split
    · exact .txDone ⟨by simp_all, by simp_all⟩
    · exact .txSend ⟨by simp_all, by simp_all⟩

/-- A fetched instruction is one that the block may run, on the state with the taken event gone. -/
theorem fetch_run (s v : State) (i : Instr) (h : fetch s = .run i v) :
    (∃ inp, v = { s with input := inp }) ∧ Runs s i := by
  unfold fetch at h
  split at h
  · obtain ⟨rfl, hr⟩ := fetchInternal_run s s v i rfl rfl rfl h
    exact ⟨⟨v.input, rfl⟩, hr⟩
  · rename_i now later hi
    split at h
    · obtain ⟨rfl, hr⟩ := fetchInternal_run { s with input := later } s v i rfl rfl rfl h
      exact ⟨⟨later, rfl⟩, hr⟩
    · rename_i ev rest ht
      obtain ⟨rfl, hr⟩ := decodeIn_event s _ v ev i
        (fun hc => ⟨now, later, hi, ev, takeEvent_mem now rest ev ht, hc⟩) h
      exact ⟨⟨_, rfl⟩, hr⟩

/-- A word decodes the same whatever the slots hold. -/
theorem decodeIn_sample (s v : State) (w : Word) (m : Window) (i : Instr) (h : decodeIn s w = .run i v) :
    decodeIn { s with sample := m } w = .run i { v with sample := m } := by
  have hk : tableCtx { s with sample := m } = tableCtx s := rfl
  unfold decodeIn at *
  rw [hk]
  split at h <;> cases h
  rfl

/-- The internal step is the same whatever the slots hold. -/
theorem fetchInternal_sample (s : State) (m : Window) :
    (∀ i v, fetchInternal s = .run i v → fetchInternal { s with sample := m } = .run i { v with sample := m }) ∧
      (∀ v, fetchInternal s = .idle v → fetchInternal { s with sample := m } = .idle { v with sample := m }) := by
  rw [fetchInternal_eq, fetchInternal_eq]
  constructor
  · intro i v h; simp only at *; split at h <;> cases h <;> simp_all
  · intro v h; simp only at *; split at h <;> cases h; simp_all

/-- What a step runs is the same whatever the slots hold. -/
theorem fetch_sample (s : State) (m : Window) :
    (∀ i v, fetch s = .run i v → fetch { s with sample := m } = .run i { v with sample := m }) ∧
      (∀ v, fetch s = .idle v → fetch { s with sample := m } = .idle { v with sample := m }) := by
  unfold fetch
  simp only
  split
  · exact fetchInternal_sample s m
  · split
    · exact fetchInternal_sample _ m
    · exact ⟨fun i v h => decodeIn_sample _ v _ m i h, fun v h => by unfold decodeIn at h; split at h <;> cases h⟩

/-- The effects a step can have on the state u, in which the event it takes is gone; `presented` is that the environment
presents a RESET. -/
inductive Did (presented : Prop) (u : State) : State → Prop where
  /-- Nothing: a wait (41_capture R511) or an ignored edge (41_capture R502). -/
  | nothing : Did presented u u
  /-- The opening edge (41_capture R504). -/
  | opened (t : State) (ready : u.seq = .wait ∧ u.armed = true ∧ u.winOpen = false ∧ u.expPol = .falling)
      (h : openWindow u = .ok t) : Did presented u t
  /-- A later edge (41_capture R505). -/
  | captured (e l : Nat) (t : State) (ready : u.seq = .wait ∧ u.armed = true ∧ u.winOpen = true)
      (hl : limit u.cfg u.mode = some l) (he : u.elapsed < e ∧ e < l) (h : captureEdge e u = .ok t) : Did presented u t
  /-- The timer (41_capture R509). -/
  | expired (ready : u.seq = .wait ∧ u.armed = true ∧ u.winOpen = true) : Did presented u (closeWindow .expired u)
  /-- RESET (70_reset_and_hazards R1000). -/
  | wasReset (h : presented) : Did presented u (resetBlock u)
  /-- A configure command (43_configure R700). -/
  | configured (i : Instr) (w : State) (ready : u.seq = .proc ∧ u.mode = .configure)
      (hd : decode (tableCtx u) ⟨.cmdCount, u.edgeCnt.setWidth 8, 0⟩ = .ok i)
      (h : applyCommand i { u with ready := false } = some w) : Did presented u { w with seq := .tx }
  /-- A survey window (44_survey R800). -/
  | surveyed (m : State) (ready : u.seq = .proc ∧ u.mode = .survey) (h : measureWindow u = .ok m) :
      Did presented u { applyOutcome (selectOutcome m) m with seq := .tx }
  /-- A byte sent (40_transport R401). -/
  | sent (b : Byte) (rest : List Byte) (ready : u.seq = .tx ∧ u.txq = b :: rest) : Did presented u (sendByte b rest u)
  /-- The end of a response (40_transport R405). -/
  | ended (ready : u.seq = .tx ∧ u.txq = []) : Did presented u (endResponse u)

/-- What a step does, when it answers a state. -/
theorem step_effect (s t : State) (h : step s = .next t) :
    ∃ inp, Did (ResetPresented s) { s with input := inp } t := by
  unfold step advance at h
  split at h
  · rename_i i v hf
    obtain ⟨⟨inp, rfl⟩, hr⟩ := fetch_run s v i hf
    refine ⟨inp, ?_⟩
    generalize hu : { s with input := inp } = u at *
    have h1 : u.seq = s.seq := by rw [← hu]
    have h2 : u.mode = s.mode := by rw [← hu]
    have h3 : u.txq = s.txq := by rw [← hu]
    cases hr with
    | capOpen e =>
      obtain rfl | ⟨hi, hw, ho⟩ := execCapOpen_next e u t h
      · exact .nothing
      · have := (edgeIgnored_eq_false .falling u).mp hi
        exact .opened t ⟨this.1, this.2.1, hw, this.2.2⟩ ho
    | capNextF e =>
      obtain rfl | ⟨hi, hw, l, hl, ha, hb, ho⟩ := nextEdge_next .falling e u t h
      · exact .nothing
      · have := (edgeIgnored_eq_false .falling u).mp hi
        exact .captured e l t ⟨this.1, this.2.1, hw⟩ hl ⟨ha, hb⟩ ho
    | capNextR e =>
      obtain rfl | ⟨hi, hw, l, hl, ha, hb, ho⟩ := nextEdge_next .rising e u t h
      · exact .nothing
      · have := (edgeIgnored_eq_false .rising u).mp hi
        exact .captured e l t ⟨this.1, this.2.1, hw⟩ hl ⟨ha, hb⟩ ho
    | capExpire =>
      obtain ⟨hc, rfl⟩ := (onlyIf_next _ _ _ _).mp h
      exact .expired (by simpa [timerRuns, and_assoc] using hc)
    | reset hp => cases h; exact .wasReset hp
    | procConfigure hp =>
      obtain ⟨-, i, w, hd, ha, rfl⟩ := execProcConfigure_next u t h
      exact .configured i w ⟨h1.trans hp.1, h2.trans hp.2⟩ hd ha
    | procSurvey hp =>
      obtain ⟨-, m, hm, rfl⟩ := execProcSurvey_next u t h
      exact .surveyed m ⟨h1.trans hp.1, h2.trans hp.2⟩ hm
    | txSend hp =>
      obtain ⟨-, b, rest, hb, rfl⟩ := execTxSend_next u t h
      exact .sent b rest ⟨h1.trans hp.1, hb⟩
    | txDone hp =>
      obtain ⟨-, rfl⟩ := (onlyIf_next _ _ _ _).mp h
      exact .ended ⟨h1.trans hp.1, h3.trans hp.2⟩
  · rename_i v hf
    cases h
    unfold fetch at hf
    split at hf
    · rw [fetchInternal_eq] at hf
      split at hf <;> cases hf
      exact ⟨s.input, .nothing⟩
    · split at hf
      · rw [fetchInternal_eq] at hf
        split at hf <;> cases hf
        exact ⟨_, .nothing⟩
      · unfold decodeIn at hf
        split at hf <;> cases hf
  · cases h

end Sys2Proof.Machine
end

