-- ==== Sys2Proof/Laws/Legal.lean ====
section
/-! SUPPORT. Laws of the legal states: which registers have a legal range narrower than their type, and what the
environment's events leave. -/

namespace Sys2Proof.Machine

/-- The registers of 10_state R101 whose legal values are fewer than their type's: the others are always legal. -/
theorem legal_regs_iff (s : State) :
    (∀ r, legalValue s.cfg r (readReg s r) = true) ↔
      s.coarse.toNat ≤ s.cfg.coarseMax.toNat ∧ s.fine.toNat ≤ s.cfg.fineMax.toNat ∧ s.edgeCnt.toNat ≤ 10 ∧
        s.cnt.toNat < 2 ^ s.cfg.cntW ∧ s.estAvg.toNat < 2 ^ s.cfg.cntW ∧ -4294967295 ≤ s.priorErr.toInt := by
  constructor
  · intro h
    have h1 := (of_decide_eq_true (h .coarse)).2
    have h2 := (of_decide_eq_true (h .fine)).2
    have h3 := (of_decide_eq_true (h .edgeCnt)).2
    have h4 := (of_decide_eq_true (h .cnt)).2
    have h5 := (of_decide_eq_true (h .estAvg)).2
    have h6 := (of_decide_eq_true (h .priorErr)).1
    simp only [readReg] at h1 h2 h3 h4 h5 h6
    omega
  · rintro ⟨h1, h2, h3, h4, h5, h6⟩ r
    cases r
    case elapsed => exact decide_eq_true (Int.natCast_nonneg s.elapsed)
    all_goals apply decide_eq_true
    all_goals simp only [readReg]
    case coarse => omega
    case fine => omega
    case edgeCnt => omega
    case cnt => omega
    case estAvg => omega
    case priorErr => have := BitVec.toInt_lt (x := s.priorErr); norm_num at this; omega
    case target => have := s.target.isLt; omega
    case priorFreq => have := s.priorFreq.isLt; omega
    case priorVar => have := s.priorVar.isLt; omega
    case estFreq => have := s.estFreq.isLt; omega
    case estVar10 => have := s.estVar10.isLt; omega
    case mode => cases s.mode <;> decide
    case seq => cases s.seq <;> decide
    case phase => cases s.phase <;> decide
    case dir => cases s.dir <;> decide
    case havePrev => cases s.havePrev <;> decide
    case armed => cases s.armed <;> decide
    case winOpen => cases s.winOpen <;> decide
    case ready => cases s.ready <;> decide
    case txLine => cases s.txLine <;> decide
    case lastAction => cases s.lastAction <;> decide
    case expPol => cases s.expPol <;> decide
    case closeCause => cases s.closeCause <;> decide

/-- A legal state stays legal when the environment's events change. -/
theorem legal_input (s : State) (inp : List (List Event)) (h : Legal s) : Legal { s with input := inp } :=
  ⟨h.regs, h.window, h.line, h.waiting, h.unopened, h.opened, h.processing, h.sending, h.search⟩

/-- The polarity that the capture unit expects goes on as it captures (41_capture R506). -/
theorem nextPolarity_polarityAfter (s : State) (n : Nat) (h : s.expPol = polarityAfter s.mode n) :
    nextPolarity s = polarityAfter s.mode (n + 1) := by
  unfold nextPolarity polarityAfter at *
  rw [h]
  rcases Nat.mod_two_eq_zero_or_one n with e | e <;> cases s.mode <;>
    simp [e, Nat.add_mod, Polarity.flip]

end Sys2Proof.Machine
end

