-- ==== Sys2Proof/Laws/PerInstr.lean ====
section
/-! SUPPORT. For every instruction as syntax: its word fits the width that opcode_table.json gives its format, and only an
edge event carries a field beside the word. -/

namespace Sys2Proof.Laws.EncodesToFormat

/-- The bits that opcode_table.json gives the words of a format. -/
def width : Format → Nat
  | .cmdCount => 4
  | .event => 3
  | .step => 4
  | .surveyOutcome => 8
  | .reply => 8

/-- The word of a well-formed instruction fits its format, and carries a field only as an event. -/
def Statement (i : Instr) : Prop :=
  i.wf = true → (encode i).bits.toNat < 2 ^ width (encode i).format ∧ ((encode i).format ≠ .event → (encode i).e = 0)

theorem cfgShift1 : Statement .cfgShift1 := fun _ => ⟨by decide, fun _ => rfl⟩
theorem cfgShift0 : Statement .cfgShift0 := fun _ => ⟨by decide, fun _ => rfl⟩
theorem cfgSurvey : Statement .cfgSurvey := fun _ => ⟨by decide, fun _ => rfl⟩
theorem cfgReset : Statement .cfgReset := fun _ => ⟨by decide, fun _ => rfl⟩
theorem cfgNop : Statement .cfgNop := fun _ => ⟨by decide, fun _ => rfl⟩
theorem cfgInvalid (c : BitVec 4) : Statement (.cfgInvalid c) :=
  fun _ => ⟨by show (c.setWidth 8).toNat < 2 ^ 4; revert c; decide, fun _ => rfl⟩
theorem capOpen (e : Nat) : Statement (.capOpen e) := fun _ => ⟨(by decide : (0#8).toNat < 2 ^ 3), fun h => absurd rfl h⟩
theorem capNextF (e : Nat) : Statement (.capNextF e) := fun _ => ⟨(by decide : (0#8).toNat < 2 ^ 3), fun h => absurd rfl h⟩
theorem capNextR (e : Nat) : Statement (.capNextR e) := fun _ => ⟨(by decide : (1#8).toNat < 2 ^ 3), fun h => absurd rfl h⟩
theorem capExpire : Statement .capExpire := fun _ => ⟨by decide, fun _ => rfl⟩
theorem reset : Statement .reset := fun _ => ⟨by decide, fun _ => rfl⟩
theorem procConfigure : Statement .procConfigure := fun _ => ⟨by decide, fun _ => rfl⟩
theorem procSurvey : Statement .procSurvey := fun _ => ⟨by decide, fun _ => rfl⟩
theorem txSend : Statement .txSend := fun _ => ⟨by decide, fun _ => rfl⟩
theorem txDone : Statement .txDone := fun _ => ⟨by decide, fun _ => rfl⟩
theorem exactHit : Statement .exactHit := fun _ => ⟨by decide, fun _ => rfl⟩
theorem coarseMove (d : Dir) : Statement (.coarseMove d) := fun _ => ⟨by cases d <;> decide, fun _ => rfl⟩
theorem coarseBoundary (d : Dir) : Statement (.coarseBoundary d) := fun _ => ⟨by cases d <;> decide, fun _ => rfl⟩
theorem coarseBracket (d : Dir) : Statement (.coarseBracket d) := fun _ => ⟨by cases d <;> decide, fun _ => rfl⟩
theorem fineRollback : Statement .fineRollback := fun _ => ⟨by decide, fun _ => rfl⟩
theorem fineCross : Statement .fineCross := fun _ => ⟨by decide, fun _ => rfl⟩
theorem fineContinue (d : Dir) : Statement (.fineContinue d) := fun _ => ⟨by cases d <;> decide, fun _ => rfl⟩
theorem fineBoundary (d : Dir) : Statement (.fineBoundary d) := fun _ => ⟨by cases d <;> decide, fun _ => rfl⟩
theorem surveyTimeout : Statement .surveyTimeout := fun _ => ⟨by decide, fun _ => rfl⟩
theorem ack1 : Statement .ack1 := fun _ => ⟨by decide, fun _ => rfl⟩
theorem ack2 : Statement .ack2 := fun _ => ⟨by decide, fun _ => rfl⟩
theorem ack3 : Statement .ack3 := fun _ => ⟨by decide, fun _ => rfl⟩
theorem ack4 : Statement .ack4 := fun _ => ⟨by decide, fun _ => rfl⟩
theorem ack5 : Statement .ack5 := fun _ => ⟨by decide, fun _ => rfl⟩
theorem error : Statement .error := fun _ => ⟨by decide, fun _ => rfl⟩
theorem cdec : Statement .cdec := fun _ => ⟨by decide, fun _ => rfl⟩
theorem cinc : Statement .cinc := fun _ => ⟨by decide, fun _ => rfl⟩
theorem fdec : Statement .fdec := fun _ => ⟨by decide, fun _ => rfl⟩
theorem finc : Statement .finc := fun _ => ⟨by decide, fun _ => rfl⟩
theorem min : Statement .min := fun _ => ⟨by decide, fun _ => rfl⟩
theorem max : Statement .max := fun _ => ⟨by decide, fun _ => rfl⟩
theorem finish : Statement .finish := fun _ => ⟨by decide, fun _ => rfl⟩

end Sys2Proof.Laws.EncodesToFormat
end

