-- ==== Sys2Proof/Tests/Slice0.lean ====
section
/-! SUPPORT. Tests: ill-formed terms, words written out from the spec's tables, the vectors of 95_test_vectors one step each,
and a witness for every statement that has hypotheses. -/

namespace Sys2Proof.Tests

open Sys2Proof.Machine

/-- A view of the next state of an answer. -/
def seen {α : Type} (f : State → α) : Host.Outcome State Fault Refusal → Option α
  | .next t => some (f t)
  | .fault _ => none
  | .refused _ => none

/-- The refusal of an answer. -/
def refusalOf : Host.Outcome State Fault Refusal → Option Refusal
  | .next _ => none
  | .fault _ => none
  | .refused r => some r

/-- The instruction a word decodes to. -/
def read (k : Ctx) (f : Format) (bits : BitVec 8) (e : Nat) : Option Instr := (decode k ⟨f, bits, e⟩).toOption

/-- The value of a slot. -/
def slot (i : Nat) (s : State) : Option Count := (memRead i s).toOption

/-- A window in which every slot holds the greatest value of the reference configuration. -/
def stale : Window := (List.range nSamples).map (fun i => (i, 65535))

/-- An armed window of a mode in the reference configuration. -/
def waiting (m : Mode) : State := stageWait m State.reset

/-- A window of a mode with its opening edge captured. -/
def opened (m : Mode) : State := stageOpen m State.reset

/-- A CONFIGURE window closed with a count, under a target. -/
def counted (c : BitVec 4) (target : BitVec 32) : State :=
  { stageCommand c State.reset with target := target, input := [] }

/-- A SURVEY window closed as complete, all durations d. -/
def measured (d : Nat) (target : BitVec 32) : State := { stageMeasured d target State.reset with input := [] }

/-- A measured coarse search: COARSE, HAVE_PREV, DIR. -/
def coarse (d : Nat) (target : BitVec 32) (c : Byte) (prev : Bool) (dir : Dir) : State :=
  { measured d target with coarse := c, havePrev := prev, dir := dir }

/-- A measured fine search at COARSE 3: FINE, DIR, PRIOR_ERR; the last action is the step that led there. -/
def fine (d : Nat) (target : BitVec 32) (f : Byte) (dir : Dir) (priorErr : Int) : State :=
  { measured d target with
    coarse := 3
    fine := f
    phase := .fine
    dir := dir
    havePrev := true
    priorErr := BitVec.ofInt 33 priorErr
    lastAction := match dir with | .up => .finc | .down => .fdec }

-- Well-formedness

/-- A count of 5 is CFG_NOP, not CFG_INVALID, and 11 is never decoded (30_encoding R311, R312). -/
theorem test_illformed_counts_are_refused :
    (Instr.cfgInvalid 5).wf = false ∧ (Instr.cfgInvalid 11).wf = false ∧ (Instr.cfgInvalid 0).wf = false := by decide

theorem test_wellformed_counts : (Instr.cfgInvalid 6).wf = true ∧ (Instr.cfgInvalid 10).wf = true := by decide

-- Words written out from 30_encoding R311, R345, R346, R320 and opcode_table.json

theorem test_decode_counts :
    read .bare .cmdCount 0b0001 0 = some .cfgShift1 ∧ read .bare .cmdCount 0b0010 0 = some .cfgShift0 ∧
    read .bare .cmdCount 0b0011 0 = some .cfgSurvey ∧ read .bare .cmdCount 0b0100 0 = some .cfgReset ∧
    read .bare .cmdCount 0b0101 0 = some .cfgNop ∧ read .bare .cmdCount 0b0110 0 = some (.cfgInvalid 6) ∧
    read .bare .cmdCount 0b1010 0 = some (.cfgInvalid 10) := by decide

theorem test_decode_counts_never_decoded :
    read .bare .cmdCount 0b0000 0 = none ∧ read .bare .cmdCount 0b1011 0 = none ∧ read .bare .cmdCount 0b1111 0 = none := by
  decide

theorem test_decode_events :
    read .bare .event 0b000 0 = some (.capOpen 0) ∧ read { Ctx.bare with winOpen := true } .event 0b000 7 = some (.capNextF 7) ∧
    read .bare .event 0b001 3338 = some (.capNextR 3338) ∧ read .bare .event 0b010 0 = some .capExpire ∧
    read .bare .event 0b100 0 = some .reset := by decide

theorem test_decode_reserved_events :
    read .bare .event 0b011 0 = none ∧ read .bare .event 0b101 0 = none ∧ read .bare .event 0b110 0 = none ∧
    read .bare .event 0b111 0 = none ∧ read .bare .event 0b010 1 = none := by decide

theorem test_decode_steps :
    read .bare .step 0b0100 0 = some .procConfigure ∧ read .bare .step 0b0101 0 = some .procSurvey ∧
    read .bare .step 0b1000 0 = some .txSend ∧ read .bare .step 0b1010 0 = some .txSend ∧
    read { Ctx.bare with txqEmpty := true } .step 0b1001 0 = some .txDone := by decide

theorem test_decode_no_such_step :
    read .bare .step 0b0000 0 = none ∧ read .bare .step 0b0110 0 = none ∧ read .bare .step 0b0111 0 = none ∧
    read .bare .step 0b1011 0 = none ∧ read .bare .step 0b1100 0 = none := by decide

theorem test_decode_outcomes_coarse :
    read { Ctx.bare with errZero := false } .surveyOutcome 0b11000001 0 = some (.coarseMove .up) ∧
    read { Ctx.bare with errZero := false } .surveyOutcome 0b11000000 0 = some (.coarseMove .down) ∧
    read { Ctx.bare with errZero := false } .surveyOutcome 0b11010001 0 = some (.coarseBoundary .up) ∧
    read { Ctx.bare with errZero := false } .surveyOutcome 0b11110000 0 = some (.coarseBracket .down) := by decide

theorem test_decode_outcomes_fine :
    read { Ctx.bare with errZero := false, fine := true } .surveyOutcome 0b11110001 0 = some (.fineContinue .up) ∧
    read { Ctx.bare with errZero := false, fine := true } .surveyOutcome 0b11010000 0 = some (.fineBoundary .down) ∧
    read { Ctx.bare with errZero := false, fine := true, worse := true } .surveyOutcome 0b11010010 0 = some .fineRollback ∧
    read { Ctx.bare with errZero := false, fine := true } .surveyOutcome 0b11010010 0 = some .fineCross ∧
    read .bare .surveyOutcome 0b11010010 0 = some .exactHit ∧ read .bare .surveyOutcome 0b11101110 0 = some .surveyTimeout := by
  decide

theorem test_decode_replies_ack_error :
    read .bare .reply 0b10100001 0 = some .ack1 ∧ read .bare .reply 0b10100010 0 = some .ack2 ∧
    read .bare .reply 0b10100011 0 = some .ack3 ∧ read .bare .reply 0b10100100 0 = some .ack4 ∧
    read .bare .reply 0b10100101 0 = some .ack5 ∧ read .bare .reply 0b11101110 0 = some .error := by decide

theorem test_decode_replies_survey :
    read .bare .reply 0b11000000 0 = some .cdec ∧ read .bare .reply 0b11000001 0 = some .cinc ∧
    read .bare .reply 0b11110000 0 = some .fdec ∧ read .bare .reply 0b11110001 0 = some .finc ∧
    read .bare .reply 0b11010000 0 = some .min ∧ read .bare .reply 0b11010001 0 = some .max ∧
    read .bare .reply 0b11010010 0 = some .finish ∧ read .bare .reply 0b10100110 0 = none := by decide

/-- The words that the table lists first. -/
theorem test_table_words :
    decodeTableWord 8 0b0001 = some .cfgShift1 ∧ decodeTableWord 8 0b11010010 = some .exactHit ∧
    decodeTableWord 8 0b10100101 = some .ack5 ∧ decodeTableWord 8 0b11111111 = none := by decide

/-- The first step after reset runs the placed word: SHIFT1 leaves TARGET 1. -/
theorem test_placed_word_runs :
    seen (fun t => (t.target, t.txq, t.seq)) (step (State.reset.withFetchWord 8 0b0001)) = some (1, [0xA1], .tx) := by decide

/-- A word of no row is rejected by the next step. -/
theorem test_placed_nothing :
    refusalOf (step (State.reset.withFetchWord 8 0b11111111)) = some (.rejected (.reservedEvent 3)) := by decide

-- 95_test_vectors 2.1 and 2.2: frames and falling edges

theorem test_frame_levels_of_A1 :
    frameLevels 0xA1 = [false, true, false, false, false, false, true, false, true, true] := by decide

theorem test_falling_edges :
    fallingEdges 0x03 = 2 ∧ fallingEdges 0xA1 = 3 ∧ fallingEdges 0x5A = 4 ∧ fallingEdges 0x55 = 5 ∧ fallingEdges 0xAA = 4 := by
  decide

-- 95_test_vectors 2.3: capture

theorem test_V_CAP_1 :
    seen (fun t => (slot 0 t, t.cnt, t.edgeCnt, t.winOpen, t.expPol)) (exec (.capOpen 0) { waiting .survey with sample := stale }) =
      some (some 0, 0, 1, true, .rising) := by decide

theorem test_V_CAP_2 :
    seen (fun t => (slot 0 t, t.edgeCnt, t.winOpen, t.expPol))
        (exec (.capOpen 0) { waiting .configure with sample := stale }) = some (some 0, 1, true, .falling) := by decide

/-- V-CAP-3, V-CAP-4, V-CAP-8. -/
theorem test_V_CAP_3_4_8 :
    seen (fun t => (t.winOpen, t.edgeCnt)) (exec (.capNextR 0) (waiting .survey)) = some (false, 0) ∧
    seen (fun t => (t.cnt, slot 0 t, slot 1 t, t.edgeCnt, t.expPol)) (exec (.capNextR 3338) (opened .survey)) =
      some (3338, some 0, some 3333, 2, .falling) ∧
    seen (fun t => (t.cnt, slot 1 t)) (exec (.capNextR 65541) { opened .survey with sample := stale }) =
      some (5, some 0) := by decide

theorem test_V_CAP_5 : seen (fun t => (t.edgeCnt, t.cnt)) (exec (.capNextF 3338) (opened .survey)) = some (1, 0) := by decide

theorem test_V_CAP_7 :
    seen (fun t => (slot 1 t, t.expPol)) (exec (.capNextF 3) (opened .configure)) = some (some 65534, .falling) := by decide

/-- V-CAP-9, and V-CAP-11: the edge at T_WIN itself is not taken. -/
theorem test_V_CAP_9_11 :
    seen (slot 9) (exec (.capNextR 30000) { opened .survey with edgeCnt := 9, elapsed := 29997 }) = some (some 29995) ∧
    seen (fun t => (t.edgeCnt, t.armed, t.closeCause, t.ready, t.seq))
        (exec (.capNextR 30000) { opened .survey with edgeCnt := 9, elapsed := 29997 }) =
      some (10, false, .complete, true, .proc) ∧
    refusalOf (exec (.capNextR 133320) (opened .survey)) = some .edgePastLimit := by decide

/-- V-CAP-10 and V-CAP-12. -/
theorem test_V_CAP_10_12 :
    seen (fun t => (t.armed, t.closeCause, t.ready, t.seq, t.edgeCnt)) (exec .capExpire { opened .survey with edgeCnt := 4 }) =
      some (false, .expired, true, .proc, 4) ∧
    refusalOf (exec .capExpire (waiting .configure)) = some .expireWithoutWindow := by decide

theorem test_V_CAP_13 :
    seen (fun t => (t.edgeCnt, t.seq)) (exec (.capOpen 0) (counted 3 0)) = some (3, .proc) ∧
    seen (fun t => (t.edgeCnt, t.seq)) (exec (.capNextF 9) (counted 3 0)) = some (3, .proc) := by decide

-- 95_test_vectors 2.4: the estimator

theorem test_V_EST_1 :
    seen (fun t => (t.estAvg, t.estFreq, t.estVar10)) (exec .procSurvey (measured 3333 15998400)) =
      some (3333, 15998400, 0) := by decide

theorem test_V_EST_3 :
    average [3330, 3336, 3333, 3333, 3331, 3335, 3333, 3334] = 3333 ∧
    frequency Config.ref [3330, 3336, 3333, 3333, 3331, 3335, 3333, 3334] = 15998400 ∧
    deviationSum [3330, 3336, 3333, 3333, 3331, 3335, 3333, 3334] = 27 ∧
    variance10 [3330, 3336, 3333, 3333, 3331, 3335, 3333, 3334] = 33 := by decide

theorem test_V_EST_7 :
    average [0, 65535, 0, 65535, 0, 65535, 0, 65535] = 32767 ∧
    deviationSum [0, 65535, 0, 65535, 0, 65535, 0, 65535] = 8589672452 ∧
    variance10 [0, 65535, 0, 65535, 0, 65535, 0, 65535] = 4294967295 := by decide

/-- The slots of V-CAP-14: the counter wrapped between slots 1 and 2. -/
theorem test_V_EST_10 :
    durations 16 [65000, 464, 1464, 2464, 3464, 4464, 5464, 6464, 7464] =
      [1000, 1000, 1000, 1000, 1000, 1000, 1000, 1000] := by decide

-- 95_test_vectors 2.5: the configure commands

theorem test_V_CFG_1 :
    seen (fun t => (t.target, t.txq, t.seq)) (exec .procConfigure (counted 1 5)) = some (0xB, [0xA1], .tx) := by decide

theorem test_V_CFG_3 : seen (fun t => (t.target, t.txq)) (exec .procConfigure (counted 2 0x80000000)) = some (0, [0xA2]) := by
  decide

theorem test_V_CFG_4 : seen (fun t => t.target) (exec .procConfigure (counted 1 0xFFFFFFFF)) = some 0xFFFFFFFF := by decide

theorem test_V_CFG_5 :
    seen (fun t => ((t.target, t.coarse, t.fine), t.phase, t.mode, t.txq))
        (exec .procConfigure { counted 4 0xF42400 with coarse := 3, fine := 13, phase := .fine }) =
      some ((0, 1, 16), .coarse, .configure, [0xA4]) := by decide

theorem test_V_CFG_7 : seen (fun t => (t.target, t.mode, t.txq)) (exec .procConfigure (counted 5 11)) =
    some (11, .configure, [0xA5]) := by decide

theorem test_V_CFG_8 :
    seen (fun t => (t.mode, t.target, t.coarse, t.fine, t.txq))
        (exec .procConfigure { counted 3 11 with coarse := 3, fine := 13, havePrev := true }) =
      some (.survey, 11, 3, 13, [0xA3]) := by decide

theorem test_V_CFG_9 : seen (fun t => (t.target, t.txq)) (exec .procConfigure (counted 6 11)) = some (11, [0xEE]) := by decide

theorem test_V_CFG_10 :
    seen (fun t => (t.target, t.txq)) (exec .procConfigure { counted 10 11 with closeCause := .complete }) =
      some (11, [0xEE]) := by decide

/-- A command body outside its PROC step has no step. -/
theorem test_command_outside_proc : refusalOf (exec .cfgNop (waiting .configure)) = some .notConfiguring := by decide

-- 95_test_vectors 2.6: SURVEY

theorem test_V_SRV_1 :
    seen (fun t => (t.txq, t.mode)) (exec .procSurvey (measured 3333 15998400)) =
      some ([0xD2, 0xC0, 0x1D, 0xF4, 0x00, 0x00, 0x00, 0x00, 0x00, 0x10, 0x01], .finished) := by decide

theorem test_V_SRV_2 :
    seen (fun t => (t.txq, t.coarse, t.dir, t.havePrev, t.lastAction)) (exec .procSurvey (coarse 3256 16000000 1 false .down)) =
      some ([0xC1], 2, .up, true, .cinc) := by decide

theorem test_V_SRV_3 :
    seen (fun t => (t.txq, t.coarse, t.dir)) (exec .procSurvey (coarse 3256 10000000 1 false .down)) =
      some ([0xC0], 0, .down) := by decide

theorem test_V_SRV_4 :
    seen (fun t => (t.txq, t.coarse, t.fine)) (exec .procSurvey (coarse 3216 10000000 0 true .down)) =
      some ([0xD0, 0x00, 0x8C, 0xEB, 0x00, 0x00, 0x00, 0x00, 0x00, 0x10, 0x00], 0, 16) := by decide

theorem test_V_SRV_5 :
    seen (fun t => (t.txq, t.coarse, t.fine)) (exec .procSurvey (coarse 3336 20000000 3 true .up)) =
      some ([0xD1, 0x00, 0x56, 0xF4, 0x00, 0x00, 0x00, 0x00, 0x00, 0x10, 0x03], 3, 16) := by decide

theorem test_V_SRV_6 :
    seen (fun t => (t.txq, t.phase, t.dir, t.fine, t.lastAction)) (exec .procSurvey (coarse 3336 16000000 3 true .up)) =
      some ([0xF0], .fine, .down, 15, .fdec) ∧
    seen (fun t => (t.priorFreq, t.priorErr)) (exec .procSurvey (coarse 3336 16000000 3 true .up)) =
      some (16012800, 12800) := by decide

theorem test_V_SRV_7 :
    seen (fun t => (t.txq.head?, t.txq.drop 9, t.fine))
        (exec .procSurvey { coarse 3336 16000000 3 true .up with fine := 0 }) = some (some 0xD0, [0x00, 0x03], 0) := by decide

theorem test_V_SRV_8 :
    seen (fun t => (t.txq, t.fine, t.priorErr)) (exec .procSurvey (fine 3335 16000000 15 .down 12800)) =
      some ([0xF0], 14, 8000) := by decide

theorem test_V_SRV_9 :
    seen (fun t => t.txq) (exec .procSurvey (fine 3333 16000000 13 .down 3200)) =
      some [0xD2, 0xC0, 0x1D, 0xF4, 0x00, 0x00, 0x00, 0x00, 0x00, 0x0D, 0x03] := by decide

theorem test_V_SRV_10 :
    seen (fun t => (t.txq, t.fine, t.lastAction))
        (exec .procSurvey { fine 3333 16002000 13 .down 1200 with priorFreq := 16003200 }) =
      some ([0xD2, 0x80, 0x30, 0xF4, 0x00, 0x00, 0x00, 0x00, 0x00, 0x0E, 0x03], 14, .none) := by decide

/-- ERR = +7 000 against PRIOR_ERR = −6 000: the target of FREQ 15 998 400 is 15 991 400. -/
theorem test_V_SRV_11 :
    seen (fun t => (t.txq.head?, t.fine, t.mode)) (exec .procSurvey (fine 3333 15991400 13 .up (-6000))) =
      some (some 0xD2, 12, .finished) := by decide

theorem test_V_SRV_12 :
    seen (fun t => (t.txq, t.fine, t.priorErr.toInt)) (exec .procSurvey (fine 3333 16005400 13 .up (-6000))) =
      some ([0xF1], 14, -7000) := by decide

theorem test_V_SRV_13 :
    seen (fun t => (t.txq.head?, t.fine)) (exec .procSurvey (fine 3333 15996000 13 .up (-2400))) =
      some (some 0xD2, 13) := by decide

theorem test_V_SRV_14 :
    seen (fun t => (t.txq.head?, t.fine)) (exec .procSurvey (fine 3333 16003200 13 .up (-2400))) =
      some (some 0xD2, 12) := by decide

theorem test_V_SRV_15 :
    seen (fun t => (t.txq.head?, t.fine, t.priorErr.toInt)) (exec .procSurvey (fine 3333 16003200 31 .up (-9600))) =
      some (some 0xD1, 31, -4800) := by decide

/-- V-EXC-2: five edges, then the timer. -/
theorem test_V_EXC_2 :
    seen (fun t => (t.txq, t.mode, t.coarse, t.fine, t.target))
        (exec .procSurvey { coarse 3333 16000000 2 true .up with edgeCnt := 5, closeCause := .expired }) =
      some ([0xEE], .configure, 1, 16, 16000000) := by decide

/-- An outcome that the state does not select has no step. -/
theorem test_outcome_not_selected : refusalOf (exec .fineCross (measured 3333 15998400)) = some .notSelected := by decide

-- 95_test_vectors: exceptions, reset, transmitter

/-- V-EXC-4: a reset and an expiry at the same instant. -/
theorem test_V_EXC_4 :
    seen (fun t => (t.seq, t.winOpen, t.input)) (step { opened .survey with input := [[⟨2, 0⟩, ⟨4, 0⟩]] }) =
      some (.wait, false, []) := by decide

theorem test_V_RST_1 :
    seen (fun t => ((t.txLine, t.txq, t.mode), t.target, t.coarse, t.fine))
        (exec .reset { fine 3333 16003200 31 .up (-9600) with seq := .tx, txq := [1, 2], txLine := false }) =
      some ((true, [], .configure), 0, 1, 16) ∧
    seen (fun t => (t.seq, t.armed, t.winOpen, slot 9 t)) (exec .reset (measured 3333 16003200)) =
      some (.wait, true, false, some 29997) := by decide

theorem test_V_TX_2 :
    seen (fun t => (t.sent, t.txq)) (exec .txSend { counted 1 0 with seq := .tx, mode := .survey, txq := [0xF0] }) =
      some ([0xF0], []) := by decide

theorem test_V_TX_3 :
    seen (fun t => (t.mode, t.seq, t.armed)) (exec .txDone { counted 1 0 with seq := .tx, mode := .finished }) =
      some (.configure, .wait, true) := by decide

/-- A slot that nothing has written holds the value it had at power-on (10_state R152), and there is no slot 10 (20_memory
R205). -/
theorem test_slots :
    slot 9 { waiting .survey with sample := stale } = some 65535 ∧
    memRead 10 State.reset = .error (.noSuchSlot 10) := by decide

/-- The estimate does not use slot 0, whatever it holds (42_estimator R601). -/
theorem test_slots_of_the_estimate :
    seen (fun t => t.estAvg) (exec .procSurvey { measured 3333 0 with sample := Memory.write 0 7 (measured 3333 0).sample }) =
      some 3333 := by decide

/-- The reply bytes in the PROC step of a mode that emits them, and not elsewhere. -/
theorem test_replies :
    seen (fun t => t.txq) (exec .error (measured 0 0)) = some [0xEE] ∧
    refusalOf (exec .ack1 (measured 0 0)) = some .notReplying ∧
    refusalOf (exec .finish (waiting .survey)) = some .notReplying := by decide

-- Witnesses: for every statement with hypotheses a state and operands that meet them together

theorem witness_DecodeOfEncodeIsIdentity :
    ((Instr.cfgInvalid 10).wf = true ∧ (Instr.cfgInvalid 10).admits .bare = true) ∧
    ((Instr.capNextF 7).wf = true ∧ (Instr.capNextF 7).admits { Ctx.bare with winOpen := true } = true) ∧
    (Instr.fineCross.wf = true ∧ Instr.fineCross.admits { Ctx.bare with errZero := false } = true) := by decide

theorem witness_DecodedInstructionsReencode :
    decode .bare ⟨.step, 0b1010, 0⟩ = .ok .txSend ∧ decode .bare ⟨.cmdCount, 10, 0⟩ = .ok (.cfgInvalid 10) := by decide

theorem witness_ReservedEventCodesAreRefused :
    ({ waiting .configure with input := [[⟨3, 0⟩]] } : State).input = [⟨0b011#3, 0⟩] :: [] ∧
    ({ counted 1 0 with input := [[⟨7, 9⟩]] } : State).input = [⟨0b111#3, 9⟩] :: [] := by decide

theorem witness_CanonicalBytesGiveTheirCount : commandByte 1 = some 0x00 ∧ commandByte 5 = some 0x55 := by decide

theorem witness_StepRunsThePresentedEvent :
    let s := { waiting .configure with input := [[⟨0, 0⟩]] }
    s.input = [⟨0, 0⟩] :: [] ∧ decode (tableCtx s) (eventWord ⟨0, 0⟩) = .ok (.capOpen 0) := by decide

/-- Each clause: PROC in each mode, TX with and without a byte, nothing presented or an empty instant. -/
theorem witness_StepRunsTheSelectedStep :
    ((counted 1 0).seq ≠ .wait ∧ decode (tableCtx (counted 1 0)) (stepWord (counted 1 0)) = .ok .procConfigure ∧
      (counted 1 0).input = [] ∧ (present [] (counted 1 0)).input = [] :: []) ∧
    ((measured 0 0).seq = .proc ∧ (measured 0 0).mode = .survey ∧ (measured 0 0).input = []) ∧
    (let s := { counted 1 0 with mode := .finished }; s.seq = .proc ∧ s.mode = .finished ∧ s.input = []) ∧
    (let s := { counted 1 0 with seq := .tx, txq := [1] }; s.seq = .tx ∧ s.txq ≠ [] ∧ s.input = []) ∧
    (let s := { counted 1 0 with seq := .tx }; s.seq = .tx ∧ s.txq = [] ∧ s.input = []) := by decide

theorem witness_UnopenedWindowWaitsForEver :
    let s := { waiting .survey with input := [[], [⟨1, 5⟩]] }
    s.seq = .wait ∧ s.armed = true ∧ s.winOpen = false ∧ s.expPol = .falling ∧
      s.input = [none, some 5].map (fun o => o.elim [] (fun e => [⟨1, e⟩])) := by decide

theorem witness_SimultaneousEventsAreTakenInOrder :
    (let now : List Event := [⟨2, 0⟩, ⟨4, 0⟩, ⟨0, 9⟩];
      (∃ ev ∈ now, isReset ev = true ∧ ev.e = 0) ∧ (∀ ev ∈ now, isReserved ev = false) ∧
        (∀ ev ∈ now, isReset ev = true → ev.e = 0)) ∧
    (let s := { opened .survey with input := [[⟨1, 9⟩, ⟨2, 0⟩]] };
      s.input = [⟨1, 9⟩, ⟨2, 0⟩] :: [] ∧ s.seq = .wait ∧ s.armed = true ∧ s.winOpen = true) := by decide

theorem witness_IgnoredEdgeChangesNothing :
    (counted 1 0).seq ≠ .wait ∧ ({ waiting .survey with armed := false } : State).armed = false ∧
      (opened .survey).expPol = .rising ∧ (waiting .survey).expPol = .falling := by decide

theorem witness_OpeningEdgeOpensTheWindow :
    (waiting .survey).seq = .wait ∧ (waiting .survey).armed = true ∧ (waiting .survey).winOpen = false ∧
      (waiting .survey).expPol = .falling := by decide

/-- The least and the greatest edge time, the first and the last slot; SURVEY's LIMIT in the reference is 133 320. -/
theorem witness_NextEdgeIsCaptured :
    (let s := opened .survey;
      s.seq = .wait ∧ s.armed = true ∧ s.winOpen = true ∧ s.expPol = .rising ∧ limit s.cfg s.mode = some 133320 ∧
        s.elapsed < 1 ∧ 1 < 133320 ∧ s.edgeCnt.toNat ≤ 9) ∧
    (let s := { opened .configure with edgeCnt := 9 };
      s.seq = .wait ∧ s.armed = true ∧ s.winOpen = true ∧ s.expPol = .falling ∧ limit s.cfg s.mode = some 40000 ∧
        s.elapsed < 39999 ∧ 39999 < 40000 ∧ s.edgeCnt.toNat = 9) := by decide

theorem witness_EdgeOutOfTimeHasNoStep :
    (let s := { opened .survey with elapsed := 7 };
      s.seq = .wait ∧ s.armed = true ∧ s.winOpen = true ∧ limit s.cfg s.mode = some 133320 ∧ s.elapsed < 133320 ∧
        7 ≤ s.elapsed ∧ s.expPol = .rising) ∧
    (let s := opened .configure;
      limit s.cfg s.mode = some 40000 ∧ s.elapsed < 40000 ∧ s.expPol = .falling ∧ 40000 ≤ 40000) := by decide

theorem witness_ExpiryClosesTheOpenWindow :
    ((opened .survey).seq = .wait ∧ (opened .survey).armed = true ∧ (opened .survey).winOpen = true) ∧
      (counted 1 0).seq ≠ .wait ∧ ({ opened .survey with armed := false } : State).armed = false ∧
      (waiting .survey).winOpen = false := by decide

/-- The PROC step of CONFIGURE with each count: the hypotheses of the statements about configure commands, of the body that
PROC_CONFIGURE runs, and of the acknowledgement, at the ends of their ranges. -/
theorem witness_configure_commands :
    (counted 1 0).seq = .proc ∧ (counted 1 0).mode = .configure ∧ (counted 1 0).edgeCnt = 1 ∧ (counted 2 0).edgeCnt = 2 ∧
      (counted 3 0).edgeCnt = 3 ∧ (counted 4 0).edgeCnt = 4 ∧ (counted 5 0).edgeCnt = 5 ∧
      (6 ≤ (counted 6 0).edgeCnt.toNat ∧ (counted 10 0).edgeCnt.toNat ≤ 10) ∧
      (1 ≤ (counted 1 0).edgeCnt.toNat ∧ (counted 5 0).edgeCnt.toNat ≤ 5) := by decide

theorem witness_ThirtyTwoCommandsSpellTheTarget :
    (counted 1 7).seq = .proc ∧ (counted 1 7).mode = .configure ∧ (List.replicate 32 true).length = 32 := by decide

theorem witness_TargetChangesOnlyInConfigure : ∃ t, step (counted 1 5) = .next t ∧ t.target ≠ (counted 1 5).target :=
  ⟨_, rfl, by decide⟩

theorem witness_TargetChangesAtReset :
    ∃ t, step { waiting .configure with target := 5, input := [[⟨4, 0⟩]] } = .next t ∧ t.target ≠ 5 := ⟨_, rfl, by decide⟩

theorem witness_EstimateOfTheWindow :
    ∀ i, 1 ≤ i → i ≤ 9 → ∃ v, memRead i (measured 3333 0) = .ok v ∧ v.toNat = 3333 * i := by
  intro i h1 h9
  interval_cases i <;> exact ⟨_, rfl, by decide⟩

/-- The largest duration below 2^CNT_W of the reference configuration; the second list has one that is not below it. -/
theorem witness_DurationsAreExactUpToTheWrap :
    (List.IsChain (fun a b => a ≤ b) [0, 65535, 131070, 131070] ∧
      ∀ d ∈ gaps [0, 65535, 131070, 131070], d < 2 ^ Config.ref.cntW) ∧
    List.IsChain (fun a b => a ≤ b) [0, 65536] := by decide

theorem witness_FrequencyResolution :
    average [3330, 3336, 3333, 3333, 3331, 3335, 3333, 3334] * Config.ref.baud < 2 ^ 32 := by decide

theorem witness_ProcSurveyRunsTheOutcome :
    ((measured 0 0).seq = .proc ∧ (measured 0 0).mode = .survey ∧ (measured 0 0).closeCause = .complete) ∧
      ({ measured 0 0 with closeCause := .expired } : State).closeCause = .expired := by decide

theorem witness_ExactHitFinishes :
    let s := { measured 0 9 with estFreq := 9 }
    s.seq = .proc ∧ s.mode = .survey ∧ s.closeCause = .complete ∧ s.estFreq = s.target := by decide

/-- A first window that calls for UP and one that calls for DOWN, with and without a direction already taken. -/
theorem witness_CoarseMoveSteps :
    (let s := { coarse 0 9 2 true .up with estFreq := 8 };
      s.seq = .proc ∧ s.mode = .survey ∧ s.closeCause = .complete ∧ s.phase = .coarse ∧ s.estFreq.toNat < s.target.toNat ∧
        (s.havePrev = true → s.dir = .up) ∧ s.coarse ≠ s.cfg.coarseMax) ∧
    (let s := { coarse 0 7 1 false .up with estFreq := 8 };
      s.phase = .coarse ∧ s.target.toNat < s.estFreq.toNat ∧ (s.havePrev = true → s.dir = .down) ∧ s.coarse ≠ 0) := by decide

theorem witness_CoarseBoundaryEndsTheSurvey :
    (let s := { coarse 0 9 3 false .down with estFreq := 8 };
      s.seq = .proc ∧ s.mode = .survey ∧ s.closeCause = .complete ∧ s.phase = .coarse ∧ s.estFreq.toNat < s.target.toNat ∧
        (s.havePrev = true → s.dir = .up) ∧ s.coarse = s.cfg.coarseMax) ∧
    (let s := { coarse 0 7 0 true .down with estFreq := 8 };
      s.phase = .coarse ∧ s.target.toNat < s.estFreq.toNat ∧ (s.havePrev = true → s.dir = .down) ∧ s.coarse = 0) := by decide

/-- Each direction, at the fine boundary and one place from it. -/
theorem witness_BracketStartsFineSearch :
    (let s := { coarse 0 9 2 true .down with estFreq := 8, fine := 31 };
      s.seq = .proc ∧ s.mode = .survey ∧ s.closeCause = .complete ∧ s.phase = .coarse ∧ s.havePrev = true ∧
        s.estFreq.toNat < s.target.toNat ∧ s.dir = .down ∧ s.fine = s.cfg.fineMax ∧
        ({ s with fine := 30 } : State).fine ≠ s.cfg.fineMax) ∧
    (let s := { coarse 0 7 2 true .up with estFreq := 8, fine := 0 };
      s.target.toNat < s.estFreq.toNat ∧ s.dir = .up ∧ s.fine = 0 ∧ ({ s with fine := 1 } : State).fine ≠ 0) := by decide

/-- Worse with a prior error of exactly THRESH = 4800 and no crossing, and worse with a crossing beyond it; each last action. -/
theorem witness_RollbackFinishesWithThePriorResult :
    (let s := { fine 0 10000 13 .up (-4800) with estFreq := 0 };
      s.seq = .proc ∧ s.mode = .survey ∧ s.closeCause = .complete ∧ s.phase = .fine ∧ s.estFreq.toNat < s.target.toNat ∧
        s.priorErr.toInt.natAbs < (currentError s).natAbs ∧ s.priorErr.toInt.natAbs ≤ s.cfg.baud ∧ s.lastAction = .finc) ∧
    (let s := { fine 0 0 13 .up (-6000) with estFreq := 7000 };
      s.target.toNat < s.estFreq.toNat ∧ s.priorErr.toInt.natAbs < (currentError s).natAbs ∧ Dir.down ≠ s.dir) ∧
    (fine 0 0 13 .down 0).lastAction = .fdec ∧
    ({ fine 0 0 13 .down 0 with lastAction := .cinc } : State).lastAction = .cinc ∧
    ({ fine 0 0 13 .down 0 with lastAction := .cdec } : State).lastAction = .cdec ∧
    ({ fine 0 0 13 .down 0 with lastAction := .none } : State).lastAction = .none := by decide

/-- An equal error on the other side of the target. -/
theorem witness_CrossingFinishesWithTheCurrentResult :
    let s := { fine 0 0 13 .up (-2400) with estFreq := 2400 }
    s.seq = .proc ∧ s.mode = .survey ∧ s.closeCause = .complete ∧ s.phase = .fine ∧ s.target.toNat < s.estFreq.toNat ∧
      Dir.down ≠ s.dir ∧ (currentError s).natAbs ≤ s.priorErr.toInt.natAbs := by decide

/-- An equal error, and a worse one with a prior error one above THRESH; both directions, a place from the end and at it. -/
theorem witness_FineSearchContinues_and_FineBoundaryEndsTheSurvey :
    (let s := { fine 0 4801 30 .up (-4801) with estFreq := 0 };
      s.seq = .proc ∧ s.mode = .survey ∧ s.closeCause = .complete ∧ s.phase = .fine ∧ s.dir = .up ∧
        s.estFreq.toNat < s.target.toNat ∧ (currentError s).natAbs ≤ s.priorErr.toInt.natAbs ∧ s.fine ≠ s.cfg.fineMax ∧
        ({ s with fine := 31 } : State).fine = s.cfg.fineMax) ∧
    (let s := { fine 0 0 1 .down 4801 with estFreq := 9000 };
      s.dir = .down ∧ s.target.toNat < s.estFreq.toNat ∧ s.cfg.baud < s.priorErr.toInt.natAbs ∧
        s.priorErr.toInt.natAbs < (currentError s).natAbs ∧ s.fine ≠ 0 ∧ ({ s with fine := 0 } : State).fine = 0) := by decide

theorem witness_TimeoutAbortsTheSurvey :
    let s := { measured 0 0 with closeCause := .expired, edgeCnt := 1 }
    s.seq = .proc ∧ s.mode = .survey ∧ s.closeCause = .expired := by decide

theorem witness_SurveyStepRepliesOnce : ∃ t, exec .procSurvey (measured 3333 15998400) = .next t := ⟨_, rfl⟩

theorem witness_RepliesEmitTheirByte :
    (counted 1 0).seq = .proc ∧ (counted 1 0).mode ∈ [Mode.configure] ∧ (counted 1 0).mode ∈ [Mode.configure, .survey] ∧
      (measured 0 0).seq = .proc ∧ (measured 0 0).mode ∈ [Mode.survey] ∧ (measured 0 0).mode ∈ [Mode.configure, .survey] := by
  decide

theorem witness_TransmitterSendsTheOldestByte :
    let s := { counted 1 0 with seq := .tx, txq := [0xD2, 0xC0] }
    s.seq = .tx ∧ s.txq = 0xD2 :: [0xC0] := by decide

theorem witness_EndOfResponseRearms_and_ResponseIsSentInOrder :
    (let s := { counted 1 0 with seq := .tx }; s.seq = .tx ∧ s.txq = []) ∧
    (let s := { counted 1 0 with seq := .tx, txq := [1, 2] }; s.seq = .tx ∧ s.input = [] ∧ s.txLine = true) := by decide

/-- The state after reset is a legal state. -/
theorem legal_waiting : Legal State.reset where
  regs := (legal_regs_iff _).2 (by decide)
  window := rfl
  line := rfl
  waiting := fun _ => ⟨by decide, rfl, rfl, rfl⟩
  unopened := fun _ _ => ⟨rfl, rfl⟩
  opened := fun _ h => absurd h (by decide)
  processing := fun h => absurd h (by decide)
  sending := fun h => absurd h (by decide)
  search := fun h => absurd h (by decide)

/-- A first SURVEY window, measured, that calls for CINC, is a legal state. -/
theorem legal_measured : Legal (coarse 3256 16000000 1 false .down) where
  regs := (legal_regs_iff _).2 (by decide)
  window := by decide
  line := rfl
  waiting := fun h => absurd h (by decide)
  unopened := fun h => absurd h (by decide)
  opened := fun h => absurd h (by decide)
  processing := fun _ => ⟨by decide, rfl, rfl, rfl, by decide, fun _ => rfl, fun h => absurd h (by decide)⟩
  sending := fun h => absurd h (by decide)
  search := fun _ => .inl ⟨rfl, rfl⟩

theorem witness_SurveyTerminates :
    Legal (coarse 3256 16000000 1 false .down) ∧
    (∃ t, exec .procSurvey (coarse 3256 16000000 1 false .down) = .next t ∧ t.mode = .survey) ∧
    (∃ t, exec .cfgSurvey (counted 3 0) = .next t) ∧ (waiting .survey).seq ≠ .proc ∧ (waiting .survey).input = [] ∧
    ∃ t, step (waiting .survey) = .next t :=
  ⟨legal_measured, ⟨_, rfl, by decide⟩, ⟨_, rfl⟩, by decide, rfl, _, rfl⟩

/-- Two windows after power-on, at both ends of the slots' range, and the values they give. -/
theorem witness_StateAfterReset_and_ResetStateIsLegal :
    Memory.wf Config.ref.cntW [] = true ∧ Memory.wf Config.ref.cntW stale = true ∧
      (∀ i, i < 10 → ((fun _ => 65535 : Nat → Count) i).toNat < 2 ^ Config.ref.cntW) := by decide

/-- A window that has not opened over slots of an earlier one, and one measured, of which every slot is live. -/
theorem witness_LegalStatesNeverFault_stale :
    (Legal State.reset ∧ AgreeButStaleSlots State.reset { State.reset with sample := stale } ∧
      ∃ t, step State.reset = .next t) ∧
    (Legal (coarse 3256 16000000 1 false .down) ∧
      AgreeButStaleSlots (coarse 3256 16000000 1 false .down) (coarse 3256 16000000 1 false .down) ∧
      ∃ t, step (coarse 3256 16000000 1 false .down) = .next t) :=
  ⟨⟨legal_waiting, ⟨rfl, fun _ h => absurd h (Nat.not_lt_zero _)⟩, _, rfl⟩, legal_measured, ⟨rfl, fun _ _ => rfl⟩, _, rfl⟩

/-- A legal state and its step: the hypotheses of EveryStepKeepsLegal, LegalStatesNeverFault and BlockNeverStopsByItself. -/
theorem witness_Legal :
    (Legal State.reset ∧ State.reset.input = [] ∧ ∃ t, step State.reset = .next t) ∧
    (Legal (coarse 3256 16000000 1 false .down) ∧ ∃ t, step (coarse 3256 16000000 1 false .down) = .next t) ∧
    (present [⟨4, 0⟩] State.reset).input = [⟨4, 0⟩] :: [] ∧
    (Legal (present [] (present [⟨4, 0⟩] State.reset)) ∧
      ∃ later, (present [] (present [⟨4, 0⟩] State.reset)).input = [] :: later) :=
  ⟨⟨legal_waiting, rfl, _, rfl⟩, ⟨legal_measured, _, rfl⟩, rfl, legal_input State.reset _ legal_waiting, _, rfl⟩

/-- Slot 0 at the opening edge, slot 9 at the tenth. -/
theorem witness_SlotsAreWrittenOnlyByTheCaptureUnit :
    (∃ t, step (present [⟨0, 0⟩] { waiting .survey with sample := stale }) = .next t ∧
      memRead 0 t ≠ memRead 0 { waiting .survey with sample := stale }) ∧
    (∃ t, step (present [⟨0, 9⟩] { opened .configure with edgeCnt := 9 }) = .next t ∧
      memRead 9 t ≠ memRead 9 (opened .configure)) := ⟨⟨_, rfl, by decide⟩, ⟨_, rfl, by decide⟩⟩

theorem witness_ResultsChangeOnlyInTheirSteps :
    (∃ t, step (measured 3333 0) = .next t ∧ t.estAvg ≠ (measured 3333 0).estAvg) ∧
    (∃ t, step (coarse 3256 16000000 1 false .down) = .next t ∧ t.coarse ≠ 1) := ⟨⟨_, rfl, by decide⟩, ⟨_, rfl, by decide⟩⟩

/-- The greatest legal COARSE of the reference, the least PRIOR_ERR, and the registers at both ends of the file. -/
theorem witness_NumberedRegistersAreTheNamedOnes :
    (∃ t, writeX State.reset 3 3 = some t) ∧ (∃ t, writeX State.reset 10 (-4294967295) = some t) ∧
    (∃ t, writeX State.reset 0 2 = some t) ∧ (∃ t, writeX State.reset 23 0 = some t) ∧
    writeX State.reset 3 4 = none ∧ writeX State.reset 24 0 = none :=
  ⟨⟨_, rfl⟩, ⟨_, rfl⟩, ⟨_, rfl⟩, ⟨_, rfl⟩, by decide, by decide⟩

/-- The byte of five falling edges at the longest bit time of the reference: 9 · 4444 < 40 000. -/
theorem witness_HostByteIssuesItsCommand :
    let s := { waiting .configure with input := (hostByte 0x55 4444).map (fun ev => [ev]) ++ [[expireEvent]] }
    s.seq = .wait ∧ s.armed = true ∧ s.winOpen = false ∧ s.expPol = .falling ∧ s.mode = .configure ∧ 1 ≤ 4444 ∧
      9 * 4444 < s.cfg.tCmd ∧ s.input = (hostByte 0x55 4444).map (fun ev => [ev]) ++ [[expireEvent]] :=
  ⟨rfl, rfl, rfl, rfl, rfl, by decide, by decide, rfl⟩

/-- The longest bit time of a SURVEY window of the reference: 9 · 14 813 < 133 320. -/
theorem witness_CadenceMeasuresItsBitTime :
    let s := { waiting .survey with input := (hostByte 0x55 14813).map (fun ev => [ev]) }
    s.seq = .wait ∧ s.armed = true ∧ s.winOpen = false ∧ s.expPol = .falling ∧ s.mode = .survey ∧ 1 ≤ 14813 ∧
      9 * 14813 < s.cfg.tWin ∧ 14813 < 2 ^ s.cfg.cntW ∧ s.input = (hostByte 0x55 14813).map (fun ev => [ev]) :=
  ⟨rfl, rfl, rfl, rfl, rfl, by decide, by decide, by decide, rfl⟩

end Sys2Proof.Tests
end

/-! The numbered view x[i] of the register file (00_scope R32): one reasoning rule for a read of the register that was
written, one for a read of any other. -/

namespace Sys2Proof.Machine

/-- A non-negative number of w bits is the number of its word. -/
theorem toNat_ofInt_of_lt {w : Nat} {v : Int} (h0 : 0 ≤ v) (h : v < ((2 ^ w : Nat) : Int)) :
    ((BitVec.ofInt w v).toNat : Int) = v := by
  rw [BitVec.toNat_ofInt, Int.emod_eq_of_lt h0 h]
  exact Int.toNat_of_nonneg h0

/-- A one-bit register that holds whether v is 1 has the value v, for v of one bit. -/
theorem bitValue_decide_eq_one {v : Int} (h : 0 ≤ v ∧ v ≤ 1) : bitValue (decide (v = 1)) = v := by
  by_cases h1 : v = 1 <;> simp [bitValue, h1]
  omega

/-- A register reads as the legal value that was written to it. -/
theorem readReg_setReg_same (s : State) (r : Reg) (v : Int) (h : legalValue s.cfg r v = true) :
    readReg (setReg s r v) r = v := by
  have hw := cntW_pow_le s.cfg
  cases r <;> replace h := of_decide_eq_true h <;> simp only [setReg, readReg]
  case target | priorFreq | priorVar | estFreq | estVar10 => exact toNat_ofInt_of_lt h.1 (by omega)
  case estAvg | cnt => exact toNat_ofInt_of_lt h.1 (by omega)
  case coarse => exact toNat_ofInt_of_lt h.1 (by have := s.cfg.coarseMax.isLt; omega)
  case fine => exact toNat_ofInt_of_lt h.1 (by have := s.cfg.fineMax.isLt; omega)
  case edgeCnt => exact toNat_ofInt_of_lt h.1 (by omega)
  case priorErr =>
    rw [BitVec.toInt_ofInt]
    exact Int.bmod_eq_of_le (by omega) (by omega)
  case elapsed => exact Int.toNat_of_nonneg h
  case havePrev | armed | winOpen | ready | txLine => exact bitValue_decide_eq_one h
  case mode | seq | phase | dir | lastAction | expPol | closeCause => split_ifs <;> simp only <;> omega

/-- A register keeps its value when another is written. -/
theorem readReg_setReg_of_ne (s : State) (r q : Reg) (v : Int) (h : q ≠ r) :
    readReg (setReg s r v) q = readReg s q := by
  cases r <;> cases q <;> try contradiction
  all_goals rfl

/-- A register write leaves the SampleWindow. -/
@[simp] theorem setReg_sample (s : State) (r : Reg) (v : Int) : (setReg s r v).sample = s.sample := by
  cases r <;> rfl

/-- A register write leaves TXQ. -/
@[simp] theorem setReg_txq (s : State) (r : Reg) (v : Int) : (setReg s r v).txq = s.txq := by
  cases r <;> rfl

/-- A write of x[i] that has a result sets the register numbered i to a legal value. -/
theorem writeX_some (s t : State) (i : Nat) (v : Int) (h : writeX s i v = some t) :
    ∃ r, regFile[i]? = some r ∧ legalValue s.cfg r v = true ∧ t = setReg s r v := by
  unfold writeX at h
  split at h
  · cases h
  · split at h <;> cases h
    exact ⟨_, ‹_›, ‹_›, rfl⟩

/-- No register has two numbers (10_state R101). -/
theorem regFile_nodup : regFile.Nodup := by decide

/-- x[i] is the register numbered i. -/
theorem readX_eq (s : State) (i : Nat) (r : Reg) (h : regFile[i]? = some r) : readX s i = some (readReg s r) := by
  simp [readX, h]

/-- Registers with different numbers are different. -/
theorem regFile_ne (i j : Nat) (r q : Reg) (hr : regFile[i]? = some r) (hq : regFile[j]? = some q) (h : j ≠ i) :
    q ≠ r := by
  rintro rfl
  obtain ⟨hj, hqj⟩ := List.getElem?_eq_some_iff.mp hq
  exact h ((List.getElem?_inj hj regFile_nodup).mp (hq.trans hr.symm))

/-- Settles O58: the register numbered i is the one that is written, and no other number names it. -/
theorem numberedRegistersAreTheNamedOnes : Obligations.NumberedRegistersAreTheNamedOnes := by
  intro s t i v h
  obtain ⟨r, hr, hlegal, rfl⟩ := writeX_some s t i v h
  refine ⟨(List.getElem?_eq_some_iff.mp hr).1, ?_, fun j hj => ?_, fun k _ => ?_, setReg_txq s r v⟩
  · rw [readX_eq _ i r hr, readReg_setReg_same s r v hlegal]
  · cases hq : regFile[j]? with
    | none => simp [readX, hq]
    | some q => rw [readX_eq _ j q hq, readX_eq _ j q hq, readReg_setReg_of_ne s r q v (regFile_ne i j r q hr hq hj)]
  · exact memRead_congr k s _ (setReg_sample s r v)

end Sys2Proof.Machine

/-! The block's progress (00_scope R13, 60_exceptions R916): what a step runs with nothing presented, and that this
answers a next state where the state is legal. -/

namespace Sys2Proof.Machine

/-- A step that runs an instruction answers what the instruction does. -/
theorem step_of_run (s u : State) (i : Instr) (h : fetch s = .run i u) : step s = exec i u := by
  simp [step, advance, h]

/-- A step that waits answers the state it waits in. -/
theorem step_of_idle (s u : State) (h : fetch s = .idle u) : step s = .next u := by simp [step, advance, h]

/-- With nothing presented the block takes its internal step, on the state with an empty instant gone. -/
theorem fetch_of_nothing_presented (s : State) (h : s.input = [] ∨ ∃ later, s.input = [] :: later) :
    ∃ inp, fetch s = fetchInternal { s with input := inp } := by
  rcases h with h | ⟨later, h⟩
  · exact ⟨s.input, show fetch s = fetchInternal s by simp [fetch, h]⟩
  · exact ⟨later, by simp [fetch, h, takeEvent, takeBy]⟩

/-- A RESET presented alone is what the block runs. -/
theorem fetch_of_reset_presented (s : State) (later : List (List Event)) (h : s.input = [⟨4, 0⟩] :: later) :
    fetch s = .run .reset { s with input := later } := by
  unfold fetch
  rw [h]
  rfl

/-- The counts 1 to 10 are commands (30_encoding R311), and each command has an effect. -/
theorem decodeCount_of_range (n : Nat) (h1 : 1 ≤ n) (h10 : n ≤ 10) :
    ∃ i, decodeCount n = .ok i ∧ ∀ s, ∃ t, applyCommand i s = some t := by
  interval_cases n <;> exact ⟨_, rfl, fun _ => ⟨_, rfl⟩⟩

/-- PROC_CONFIGURE answers a next state for every count 1 to 10. -/
theorem execProcConfigure_of_range (s : State) (hp : s.seq = .proc ∧ s.mode = .configure)
    (hc : 1 ≤ s.edgeCnt.toNat ∧ s.edgeCnt.toNat ≤ 10) : ∃ t, execProcConfigure s = .next t := by
  obtain ⟨i, hi, happly⟩ := decodeCount_of_range s.edgeCnt.toNat hc.1 hc.2
  obtain ⟨t, ht⟩ := happly { s with ready := false }
  have hd : decode (tableCtx s) ⟨.cmdCount, s.edgeCnt.setWidth 8, 0⟩ = .ok i := by
    have hb : (s.edgeCnt.setWidth 8).toNat = s.edgeCnt.toNat := BitVec.toNat_setWidth_of_le (by decide)
    simp [decode, hb, hi]
  have henabled : procConfigures s = true := by simp [procConfigures, hp]
  exact ⟨{ t with seq := .tx }, by simp [execProcConfigure, henabled, hd, ht]⟩

/-- PROC_SURVEY answers a next state for every closed window. -/
theorem execProcSurvey_answers (s : State) (hp : s.seq = .proc ∧ s.mode = .survey) :
    ∃ t, execProcSurvey s = .next t :=
  ⟨_, execProcSurvey_of_measured s _ (by simp [procSurveys, hp]) (measureWindow_eq s)⟩

/-- The transmitter's step answers a next state, for an empty queue as for any other. -/
theorem exec_transmit_answers (s : State) (h : s.seq = .tx) :
    ∃ t, exec (if s.txq = [] then .txDone else .txSend) s = .next t := by
  cases hq : s.txq with
  | nil => exact ⟨endResponse s, (onlyIf_next _ _ _ _).mpr ⟨by simp [h, hq], rfl⟩⟩
  | cons b rest => exact ⟨sendByte b rest s, by simp [exec, execTxSend, h, hq]⟩

/-- A step that comes to the internal step of a legal state answers a next state: a wait, the closed window's step, or
the transmitter's. -/
theorem step_of_internal (s u : State) (hu : Legal u) (hf : fetch s = fetchInternal u) : ∃ t, step s = .next t := by
  cases hseq : u.seq with
  | wait => exact ⟨u, step_of_idle s u (by simp [hf, fetchInternal_eq, hseq])⟩
  | proc =>
    obtain ⟨hmode, -, -, -, hcount, -, -⟩ := hu.processing hseq
    cases hm : u.mode with
    | configure =>
      rw [step_of_run s u .procConfigure (by simp [hf, fetchInternal_eq, hseq, hm])]
      exact execProcConfigure_of_range u ⟨hseq, hm⟩ hcount
    | survey =>
      rw [step_of_run s u .procSurvey (by simp [hf, fetchInternal_eq, hseq, hm])]
      exact execProcSurvey_answers u ⟨hseq, hm⟩
    | finished => exact absurd hm hmode
  | tx =>
    rw [step_of_run s u _ (by rw [hf, fetchInternal_eq, hseq])]
    exact exec_transmit_answers u hseq

/-- Settles O55: an unpresented instant leaves the internal step, which a legal state always has; RESET has no
condition. -/
theorem blockNeverStopsByItself : Obligations.BlockNeverStopsByItself := by
  refine ⟨fun s hlegal hnothing => ?_, fun s later hreset => ?_⟩
  · obtain ⟨inp, hf⟩ := fetch_of_nothing_presented s hnothing
    exact step_of_internal s _ (legal_input s inp hlegal) hf
  · exact ⟨resetBlock { s with input := later }, step_of_run s _ .reset (fetch_of_reset_presented s later hreset)⟩

end Sys2Proof.Machine

/-! The state after power-on (10_state R101, R152): the reset column, and a window for every choice of ten values. -/

namespace Sys2Proof.Machine

/-- The registers after power-on hold the reset column. -/
theorem readReg_resetWith (c : Config) (slots : Window) (r : Reg) :
    readReg (State.resetWith c slots) r = resetColumn c r := by
  cases r <;> rfl

/-- Any values of w bits are what the first slots of some canonical window read as. -/
theorem exists_window_reading (w : Nat) (x : Nat → Count) (n : Nat) (hn : n ≤ nSamples)
    (hx : ∀ i, i < n → (x i).toNat < 2 ^ w) :
    ∃ m, Memory.wf w m = true ∧ ∀ i, i < n → Memory.read i m = x i := by
  induction n with
  | zero => exact ⟨[], rfl, fun i hi => absurd hi (Nat.not_lt_zero i)⟩
  | succ n ih =>
    obtain ⟨m, hwf, hread⟩ := ih (by omega) fun i hi => hx i (by omega)
    refine ⟨Memory.write n (x n) m, Memory.wf_write w n (x n) m hn (hx n (by omega)) hwf, fun i hi => ?_⟩
    rw [Memory.read_write]
    split
    · rw [‹i = n›]
    · exact hread i (by omega)

/-- Settles O51: a window for any ten values is written slot by slot. -/
theorem stateAfterReset : Obligations.StateAfterReset := by
  refine ⟨fun c slots => ⟨readReg_resetWith c slots, rfl, fun hwf i hi => ?_⟩, fun c x hx => ?_, rfl, fun i hi => ?_⟩
  · exact ⟨_, memRead_of_lt i _ hi, Memory.read_lt c.cntW 0 i slots hwf⟩
  · obtain ⟨slots, hwf, hread⟩ := exists_window_reading c.cntW x 10 (le_refl _) hx
    exact ⟨slots, hwf, fun i hi => (memRead_of_lt i _ hi).trans (congrArg Except.ok (hread i hi))⟩
  · exact memRead_of_lt i _ hi

end Sys2Proof.Machine

/-! The legal states, for a step of each kind: the conditions on values alone, which every operation of a step keeps, and
from them the legal states of SEQ = WAIT, PROC and TX. -/

namespace Sys2Proof.Machine

/-- The conditions of Legal that look at neither SEQ nor MODE: the registers whose legal range is narrower than their
type (10_state R101), the SampleWindow (20_memory R201) and the line (40_transport R404). -/
structure InRange (s : State) : Prop where
  coarse : s.coarse.toNat ≤ s.cfg.coarseMax.toNat
  fine : s.fine.toNat ≤ s.cfg.fineMax.toNat
  edgeCnt : s.edgeCnt.toNat ≤ 10
  cnt : s.cnt.toNat < 2 ^ s.cfg.cntW
  estAvg : s.estAvg.toNat < 2 ^ s.cfg.cntW
  priorErr : -4294967295 ≤ s.priorErr.toInt
  window : Memory.wf s.cfg.cntW s.sample = true
  line : s.txLine = true

/-- A legal state is in range. -/
theorem Legal.inRange {s : State} (h : Legal s) : InRange s := by
  obtain ⟨hcoarse, hfine, hedge, hcnt, havg, herr⟩ := (legal_regs_iff s).mp h.regs
  exact ⟨hcoarse, hfine, hedge, hcnt, havg, herr, h.window, h.line⟩

/-- In range, every register holds a legal value. -/
theorem InRange.regs {s : State} (h : InRange s) (r : Reg) : legalValue s.cfg r (readReg s r) = true :=
  (legal_regs_iff s).mpr ⟨h.coarse, h.fine, h.edgeCnt, h.cnt, h.estAvg, h.priorErr⟩ r

/-- A window armed in a mode that has windows, with nothing queued, is legal (40_transport R406). -/
theorem legal_armWindow (s : State) (h : InRange s) (hmode : s.mode ≠ .finished) (hq : s.txq = [])
    (hsearch : s.mode = .survey → SearchConsistent s) : Legal (armWindow s) where
  regs := InRange.regs { h with edgeCnt := Nat.zero_le 10 }
  window := h.window
  line := h.line
  waiting := fun _ => ⟨hmode, rfl, rfl, hq⟩
  unopened := fun _ _ => ⟨rfl, rfl⟩
  opened := nofun
  processing := nofun
  sending := nofun
  search := hsearch

/-- Settles O52: after power-on the block is as ArmWindow leaves it. -/
theorem resetStateIsLegal : Obligations.ResetStateIsLegal := fun c slots hwf =>
  legal_armWindow (State.resetWith c slots)
    { coarse := c.valid.2.2.2.2.2.2.1, fine := c.valid.2.2.2.2.2.2.2, edgeCnt := Nat.zero_le 10
      cnt := Nat.two_pow_pos c.cntW, estAvg := Nat.two_pow_pos c.cntW, priorErr := show _ ≤ (0#33).toInt by decide
      window := hwf, line := rfl }
    nofun rfl nofun

/-- RESET leaves the registers as power-on does (70_reset_and_hazards R1000), and the slots (R1004). -/
theorem resetBlock_eq (s : State) :
    resetBlock s = { State.resetWith s.cfg s.sample with input := s.input, sent := s.sent } := rfl

/-- A legal state stays legal with other bytes sent. -/
theorem legal_sent (s : State) (bs : List Byte) (h : Legal s) : Legal { s with sent := bs } :=
  ⟨h.regs, h.window, h.line, h.waiting, h.unopened, h.opened, h.processing, h.sending, h.search⟩

/-- RESET leads to a legal state. -/
theorem legal_resetBlock (s : State) (h : Legal s) : Legal (resetBlock s) := by
  have hreset := legal_input _ s.input (resetStateIsLegal s.cfg s.sample h.window)
  rw [resetBlock_eq]
  exact legal_sent _ s.sent hreset

end Sys2Proof.Machine

/-! The capture unit keeps the legal states (41_capture). -/

namespace Sys2Proof.Machine

/-- Every mode that has a window limit gives the window at least one cycle (00_scope R17). -/
theorem limit_pos (c : Config) (m : Mode) (hm : m ≠ .finished) : ∃ l, limit c m = some l ∧ 0 < l := by
  obtain ⟨-, -, -, -, hcmd, hwin, -, -⟩ := c.valid
  cases m with
  | configure => exact ⟨c.tCmd, rfl, hcmd⟩
  | survey => exact ⟨c.tWin, rfl, hwin⟩
  | finished => exact absurd rfl hm

/-- One more edge of at most nine is counted without wrapping. -/
theorem edgeCnt_succ (s : State) (h : s.edgeCnt.toNat ≤ 9) : (s.edgeCnt + 1).toNat = s.edgeCnt.toNat + 1 := by
  bv_omega

/-- The opening edge of a legal window leads to a legal state (41_capture R504). -/
theorem legal_openWindow (s t : State) (h : Legal s) (hseq : s.seq = .wait) (hpol : s.expPol = .falling)
    (ho : openWindow s = .ok t) : Legal t := by
  rw [openWindow_eq] at ho
  cases ho
  have hr := h.inRange
  have hwait := h.waiting hseq
  obtain ⟨l, hl, hpos⟩ := limit_pos s.cfg s.mode hwait.1
  have hwidth := Nat.two_pow_pos s.cfg.cntW
  have hslot := Memory.wf_write s.cfg.cntW 0 0 s.sample (by decide) hwidth hr.window
  exact {
    regs := InRange.regs { hr with edgeCnt := show 1 ≤ 10 by decide, cnt := hwidth, window := hslot }
    window := hslot
    line := hr.line
    waiting := fun _ => hwait
    unopened := nofun
    opened := fun _ _ =>
      ⟨show 1 ≤ 1 ∧ 1 ≤ 9 by decide, ⟨l, hl, hpos⟩,
        nextPolarity_polarityAfter s 0 (by simp [hpol, polarityAfter])⟩
    processing := fun hp => nomatch hseq.symm.trans hp
    sending := fun hp => nomatch hseq.symm.trans hp
    search := h.search }

/-- What a later edge writes is in range (41_capture R505). -/
theorem inRange_captured (e : Nat) (s : State) (h : InRange s) (hedge : s.edgeCnt.toNat ≤ 9) :
    InRange (captured e s) :=
  { h with
    edgeCnt := by have := edgeCnt_succ s hedge; show (s.edgeCnt + 1).toNat ≤ 10; omega
    cnt := truncCount_lt s.cfg e
    window := Memory.wf_write s.cfg.cntW _ _ s.sample (show _ < 10 by omega) (truncCount_lt s.cfg _) h.window }

/-- A window that closes leads to a legal state, with ten edges where it is complete (41_capture R507, R510). -/
theorem legal_closeWindow (cause : Close) (s : State) (h : InRange s) (hmode : s.mode ≠ .finished) (hq : s.txq = [])
    (hedge : 1 ≤ s.edgeCnt.toNat) (hcomplete : cause = .complete → s.edgeCnt.toNat = 10)
    (hexpired : cause = .expired → s.edgeCnt.toNat ≤ 9) (hsearch : s.mode = .survey → SearchConsistent s) :
    Legal (closeWindow cause s) where
  regs := InRange.regs { h with }
  window := h.window
  line := h.line
  waiting := nofun
  unopened := nofun
  opened := nofun
  processing := fun _ => ⟨hmode, rfl, rfl, hq, ⟨hedge, h.edgeCnt⟩, hcomplete, hexpired⟩
  sending := nofun
  search := hsearch

/-- A later edge within the limit leads to a legal state, whether or not it is the tenth (41_capture R505, R507). -/
theorem legal_captureEdge (e l : Nat) (s t : State) (h : Legal s) (hseq : s.seq = .wait) (hopen : s.winOpen = true)
    (hl : limit s.cfg s.mode = some l) (he : e < l) (hc : captureEdge e s = .ok t) : Legal t := by
  have hwait := h.waiting hseq
  obtain ⟨⟨-, h9⟩, -, hpol⟩ := h.opened hseq hopen
  have hr := inRange_captured e s h.inRange h9
  have hcount : (captured e s).edgeCnt.toNat = s.edgeCnt.toNat + 1 := edgeCnt_succ s h9
  obtain ⟨rfl, hlt⟩ | ⟨rfl, htenth⟩ := captureEdge_ok e s t hc
  · exact {
      regs := hr.regs
      window := hr.window
      line := hr.line
      waiting := fun _ => hwait
      unopened := fun _ hclosed => nomatch hopen.symm.trans hclosed
      opened := fun _ _ => ⟨by omega, ⟨l, hl, he⟩, by rw [hcount]; exact nextPolarity_polarityAfter s _ hpol⟩
      processing := fun hp => nomatch hseq.symm.trans hp
      sending := fun hp => nomatch hseq.symm.trans hp
      search := h.search }
  · exact legal_closeWindow .complete (captured e s) hr hwait.1 hwait.2.2.2 (by omega) (fun _ => by omega) nofun
      h.search

/-- The timer leads to a legal state (41_capture R509). -/
theorem legal_expire (s : State) (h : Legal s) (hseq : s.seq = .wait) (hopen : s.winOpen = true) :
    Legal (closeWindow .expired s) := by
  obtain ⟨hmode, -, -, hq⟩ := h.waiting hseq
  obtain ⟨⟨h1, h9⟩, -, -⟩ := h.opened hseq hopen
  exact legal_closeWindow .expired s h.inRange hmode hq h1 nofun (fun _ => h9) h.search

end Sys2Proof.Machine

/-! The responses: every command and every selected survey outcome leaves values in range, a queue that fits and, in
SURVEY, search registers that agree (44_survey R819, 20_memory R211). -/

namespace Sys2Proof.Machine

/-- What a PROC step must leave beside SEQ, ARMED and READY for the TX state after it to be legal. -/
structure Responding (s : State) : Prop extends InRange s where
  queue : s.txq.length ≤ 11
  search : s.mode = .survey → SearchConsistent s

/-- A response under transmission is legal. -/
theorem Responding.legal {s : State} (h : Responding s) (harmed : s.armed = false) (hready : s.ready = false) :
    Legal { s with seq := .tx } where
  regs := InRange.regs { h with }
  window := h.window
  line := h.line
  waiting := nofun
  unopened := nofun
  opened := nofun
  processing := nofun
  sending := fun _ => ⟨harmed, hready, h.queue⟩
  search := h.search

/-- A response of one byte. -/
theorem responding_emitReply (r : Reply) (s : State) (h : InRange s) (hq : s.txq = [])
    (hsearch : s.mode = .survey → SearchConsistent s) : Responding (emitReply r s) :=
  { h with queue := by simp [emitReply, hq], search := hsearch }

/-- A terminal reply and its trailer are eleven bytes, and the mode is SURVEY no longer. -/
theorem responding_terminal (r : Reply) (res : BitVec 32 × BitVec 32) (s : State) (h : InRange s) (hq : s.txq = []) :
    Responding (terminal r res s) := by
  rw [terminal_eq]
  exact { h with queue := by simp [hq, trailer_length], search := nofun }

/-- InitCal gives values in range (00_scope R17). -/
theorem InRange.initCal {s : State} (h : InRange s) : InRange (initCal s) := by
  obtain ⟨-, -, -, -, -, -, hcoarse, hfine⟩ := s.cfg.valid
  exact { h with coarse := hcoarse, fine := hfine }

/-- InitSearch gives values in range. -/
theorem InRange.initSearch {s : State} (h : InRange s) : InRange (initSearch s) := 
  { h with priorErr := show _ ≤ (0#33).toInt by decide }

/-- InitSearch gives search registers that agree (10_state R145). -/
theorem searchConsistent_initSearch (s : State) : SearchConsistent (initSearch s) := .inl ⟨rfl, rfl⟩

/-- The current result as the prior one is in range (10_state R129). -/
theorem InRange.recordPrior {s : State} (h : InRange s) : InRange (recordPrior s) :=
  { h with priorErr := by rw [recordPrior_priorErr, err_toInt]; exact (err_range s).1 }

/-- Every configure command responds (43_configure R701 to R706). -/
theorem responding_applyCommand (i : Instr) (s t : State) (h : InRange s) (hmode : s.mode = .configure)
    (hq : s.txq = []) (ha : applyCommand i s = some t) : Responding t := by
  have hsurvey : s.mode ≠ .survey := by simp [hmode]
  rcases applyCommand_eq i s t ha with rfl | rfl | rfl | rfl | rfl | rfl
  · exact responding_emitReply .ack1 _ { h with } hq (absurd · hsurvey)
  · exact responding_emitReply .ack2 _ { h with } hq (absurd · hsurvey)
  · exact { h.initSearch with
      queue := by simp [beginSurvey, emitReply, hq]
      search := fun _ => searchConsistent_initSearch s }
  · have hcal : InRange (initCal { s with target := 0 }) := InRange.initCal { h with }
    exact responding_emitReply .ack4 _ hcal.initSearch hq (absurd · hsurvey)
  · exact responding_emitReply .ack5 s h hq (absurd · hsurvey)
  · exact responding_emitReply .error s h hq (absurd · hsurvey)

/-- A coarse step away from the end of the range responds (44_survey R806). -/
theorem responding_stepCoarse (d : Dir) (s : State) (h : InRange s) (hq : s.txq = []) (hphase : s.phase = .coarse)
    (hdir : s.dir = d) (hend : coarseAtEnd d s = false) : Responding (stepCoarse d s) := by
  have hmax := h.coarse
  cases d with
  | up =>
    have hne : s.coarse ≠ s.cfg.coarseMax := by simpa [coarseAtEnd] using hend
    have hstep : (s.coarse + 1).toNat = s.coarse.toNat + 1 := by bv_omega
    have hle : (s.coarse + 1).toNat ≤ s.cfg.coarseMax.toNat := by bv_omega
    refine responding_emitReply .cinc _ { h with coarse := hle } hq fun _ => ?_
    simp only [SearchConsistent, hphase, hdir, hstep]
    exact ⟨trivial, trivial, by omega⟩
  | down =>
    have hne : s.coarse ≠ 0 := by simpa [coarseAtEnd] using hend
    have hlt : (s.coarse - 1).toNat < s.cfg.coarseMax.toNat := by bv_omega
    refine responding_emitReply .cdec _ { h with coarse := hlt.le } hq fun _ => ?_
    simp only [SearchConsistent, hphase, hdir]
    exact .inr ⟨trivial, trivial, hlt⟩

/-- A fine step away from the end of the range responds (44_survey R810). -/
theorem responding_stepFine (d : Dir) (s : State) (h : InRange s) (hq : s.txq = []) (hphase : s.phase = .fine)
    (hdir : s.dir = d) (hend : fineAtEnd d s = false) : Responding (stepFine d s) := by
  have hmax := h.fine
  cases d with
  | up =>
    have hne : s.fine ≠ s.cfg.fineMax := by simpa [fineAtEnd] using hend
    have hstep : (s.fine + 1).toNat = s.fine.toNat + 1 := by bv_omega
    have hle : (s.fine + 1).toNat ≤ s.cfg.fineMax.toNat := by bv_omega
    refine responding_emitReply .finc _ { h with fine := hle } hq fun _ => ?_
    simp only [SearchConsistent, hphase, hdir, hstep]
    exact ⟨trivial, by omega⟩
  | down =>
    have hne : s.fine ≠ 0 := by simpa [fineAtEnd] using hend
    have hlt : (s.fine - 1).toNat < s.cfg.fineMax.toNat := by bv_omega
    refine responding_emitReply .fdec _ { h with fine := hlt.le } hq fun _ => ?_
    simp only [SearchConsistent, hphase, hdir]
    exact ⟨trivial, hlt⟩

/-- FINE_MOVE responds, at the end of the range and away from it (44_survey R810, R811). -/
theorem responding_fineMove (s : State) (h : InRange s) (hq : s.txq = []) (hphase : s.phase = .fine) :
    Responding (fineMove s) := by
  unfold fineMove
  split
  · exact responding_terminal _ _ s h hq
  · exact responding_stepFine s.dir s h hq hphase rfl (Bool.eq_false_of_not_eq_true ‹_›)

/-- The undo of the last action stays in range where the search registers agree (44_survey R812). -/
theorem InRange.applyInverse {s : State} (h : InRange s) (hsearch : SearchConsistent s) :
    InRange (applyInverse s.lastAction s) := by
  have hcoarse := h.coarse
  have hfine := h.fine
  unfold SearchConsistent at hsearch
  split at hsearch
  · obtain ⟨ha, h1⟩ := hsearch
    rw [ha]
    exact { h with fine := by show (s.fine - 1).toNat ≤ s.cfg.fineMax.toNat; bv_omega }
  · obtain ⟨ha, hlt⟩ := hsearch
    rw [ha]
    exact { h with fine := by show (s.fine + 1).toNat ≤ s.cfg.fineMax.toNat; bv_omega }
  · obtain ⟨-, ha, h1⟩ := hsearch
    rw [ha]
    exact { h with coarse := by show (s.coarse - 1).toNat ≤ s.cfg.coarseMax.toNat; bv_omega }
  · obtain ⟨-, ha⟩ | ⟨-, ha, hlt⟩ := hsearch
    · rw [ha]
      exact h
    · rw [ha]
      exact { h with coarse := by show (s.coarse + 1).toNat ≤ s.cfg.coarseMax.toNat; bv_omega }

/-- The selected outcome is the timeout, the exact hit, or the choice of the phase (44_survey R800). -/
theorem selectOutcome_cases (s : State) :
    selectOutcome s = .timeout ∨ selectOutcome s = .exactHit ∨
      (s.phase = .coarse ∧ ∃ nd, selectOutcome s = coarseChoice nd s) ∨
      (s.phase = .fine ∧ ∃ nd, selectOutcome s = fineChoice nd s) := by
  unfold selectOutcome
  cases s.closeCause with
  | expired => exact .inl rfl
  | complete =>
    cases dirOf (err s) with
    | none => exact .inr (.inl rfl)
    | some nd =>
      cases s.phase with
      | coarse => exact .inr (.inr (.inl ⟨rfl, nd, rfl⟩))
      | fine => exact .inr (.inr (.inr ⟨rfl, nd, rfl⟩))

/-- COARSE_STEP chooses a move only away from the end of the range (44_survey R803). -/
theorem coarseChoice_coarseMove (nd d : Dir) (s : State) (h : coarseChoice nd s = .coarseMove d) :
    coarseAtEnd d s = false := by
  unfold coarseChoice at h
  split at h
  · cases h
  · split at h <;> cases h
    exact Bool.eq_false_of_not_eq_true ‹_›

/-- COARSE_STEP chooses no fine step. -/
theorem coarseChoice_ne_fineContinue (nd d : Dir) (s : State) : coarseChoice nd s ≠ .fineContinue d := by
  unfold coarseChoice
  split
  · nofun
  · split <;> nofun

/-- FINE_STEP continues only in DIR and away from the end of the range (44_survey R807, R810). -/
theorem fineChoice_fineContinue (nd d : Dir) (s : State) (h : fineChoice nd s = .fineContinue d) :
    s.dir = d ∧ fineAtEnd d s = false := by
  simp only [fineChoice] at h
  split at h
  · cases h
  · split at h
    · cases h
    · split at h <;> cases h
      exact ⟨rfl, Bool.eq_false_of_not_eq_true ‹_›⟩

/-- FINE_STEP chooses no coarse step. -/
theorem fineChoice_ne_coarseMove (nd d : Dir) (s : State) : fineChoice nd s ≠ .coarseMove d := by
  simp only [fineChoice]
  split
  · nofun
  · split
    · nofun
    · split <;> nofun

/-- COARSE_MOVE is selected in the coarse search, away from the end of the range (44_survey R803). -/
theorem selectOutcome_coarseMove (s : State) (d : Dir) (h : selectOutcome s = .coarseMove d) :
    s.phase = .coarse ∧ coarseAtEnd d s = false := by
  obtain ht | ht | ⟨hphase, nd, hc⟩ | ⟨-, nd, hc⟩ := selectOutcome_cases s
  · exact nomatch h.symm.trans ht
  · exact nomatch h.symm.trans ht
  · exact ⟨hphase, coarseChoice_coarseMove nd d s (hc.symm.trans h)⟩
  · exact absurd (hc.symm.trans h) (fineChoice_ne_coarseMove nd d s)

/-- FINE_CONTINUE is selected in the fine search, in its direction, away from the end of the range (44_survey R807). -/
theorem selectOutcome_fineContinue (s : State) (d : Dir) (h : selectOutcome s = .fineContinue d) :
    s.phase = .fine ∧ s.dir = d ∧ fineAtEnd d s = false := by
  obtain ht | ht | ⟨-, nd, hc⟩ | ⟨hphase, nd, hc⟩ := selectOutcome_cases s
  · exact nomatch h.symm.trans ht
  · exact nomatch h.symm.trans ht
  · exact absurd (hc.symm.trans h) (coarseChoice_ne_fineContinue nd d s)
  · exact ⟨hphase, fineChoice_fineContinue nd d s (hc.symm.trans h)⟩

/-- WindowTimeout responds (60_exceptions R911). -/
theorem responding_raiseWindowTimeout (k : BitVec 4) (s : State) (h : InRange s) (hq : s.txq = []) :
    Responding (raiseWindowTimeout k s) :=
  { h.initSearch.initCal with queue := by simp [raiseWindowTimeout, emitReply, hq], search := nofun }

/-- The selected survey outcome responds (44_survey R800, R819). -/
theorem responding_applyOutcome (s : State) (h : InRange s) (hq : s.txq = []) (hsearch : SearchConsistent s) :
    Responding (applyOutcome (selectOutcome s) s) := by
  cases ho : selectOutcome s with
  | exactHit => exact responding_terminal .finish (cur s) s h hq
  | coarseMove d =>
    obtain ⟨hphase, hend⟩ := selectOutcome_coarseMove s d ho
    exact responding_stepCoarse d { s with dir := d } { h with } hq hphase rfl (by cases d <;> exact hend)
  | coarseBoundary d => exact responding_terminal _ _ { s with dir := d } { h with } hq
  | coarseBracket d =>
    have hr : InRange { s with phase := .fine, dir := d } := { h with }
    exact responding_fineMove _ hr.recordPrior hq rfl
  | fineRollback =>
    have hq' : (applyInverse s.lastAction s).txq = [] := by cases s.lastAction <;> exact hq
    exact responding_terminal .finish _ _ { h.applyInverse hsearch with } hq'
  | fineCross => exact responding_terminal .finish (cur s) s h hq
  | fineContinue d =>
    obtain ⟨hphase, hdir, hend⟩ := selectOutcome_fineContinue s d ho
    exact responding_stepFine d (recordPrior s) h.recordPrior hq hphase hdir (by cases d <;> exact hend)
  | fineBoundary d => exact responding_terminal _ _ (recordPrior s) h.recordPrior hq
  | timeout => exact responding_raiseWindowTimeout s.edgeCnt s h hq

/-- The mean of the durations of nine samples has as many bits as each (42_estimator R602). -/
theorem average_durations_lt (w : Nat) (xs : List Nat) (hlen : xs.length = nDur + 1) :
    average (durations w xs) < 2 ^ w := by
  have hw := Nat.two_pow_pos w
  have hsum := List.sum_le_card_nsmul (durations w xs) (2 ^ w - 1) fun d hd => by
    have := durations_lt w xs d hd
    omega
  rw [durations_length, hlen, smul_eq_mul] at hsum
  refine Nat.div_lt_of_lt_mul ?_
  simp only [show nDur = 8 from rfl] at *
  omega

/-- Measuring a window keeps the values in range (42_estimator R605). -/
theorem inRange_measureWindow (s m : State) (h : InRange s) (hm : measureWindow s = .ok m) : InRange m := by
  rw [measureWindow_eq] at hm
  cases hm
  cases s.closeCause with
  | expired => exact { h with }
  | complete =>
    have havg := average_durations_lt s.cfg.cntW (keptValues s) rfl
    have hle := cntW_pow_le s.cfg
    exact { h with
      estAvg := by
        rw [writeEstimate_estAvg, BitVec.toNat_ofNat, Nat.mod_eq_of_lt (by omega)]
        exact havg }

/-- PROC_CONFIGURE leads to a legal state (43_configure R700). -/
theorem legal_configured (i : Instr) (s t : State) (h : Legal s) (hseq : s.seq = .proc) (hmode : s.mode = .configure)
    (ha : applyCommand i { s with ready := false } = some t) : Legal { t with seq := .tx } := by
  obtain ⟨-, harmed, -, hq, -, -, -⟩ := h.processing hseq
  have hr : InRange { s with ready := false } := { h.inRange with }
  have hkeeps := applyCommand_keeps i _ t ha
  exact (responding_applyCommand i _ t hr hmode hq ha).legal ((congrArg State.armed hkeeps).trans harmed)
    (congrArg State.ready hkeeps)

/-- PROC_SURVEY leads to a legal state (44_survey R800). -/
theorem legal_surveyed (s m : State) (h : Legal s) (hseq : s.seq = .proc) (hmode : s.mode = .survey)
    (hm : measureWindow s = .ok m) : Legal { applyOutcome (selectOutcome m) m with seq := .tx } := by
  obtain ⟨-, harmed, -, hq, -, -, -⟩ := h.processing hseq
  have hr := inRange_measureWindow s m h.inRange hm
  obtain ⟨a, f, v, hfields⟩ := measureWindow_fields s m hm
  have hkeeps := applyOutcome_keeps (selectOutcome m) m _ rfl
  have hresponds := responding_applyOutcome m hr (by rw [hfields]; exact hq) (by rw [hfields]; exact h.search hmode)
  exact hresponds.legal ((congrArg State.armed hkeeps).trans (by rw [hfields]; exact harmed))
    ((congrArg State.ready hkeeps).trans (by rw [hfields]))

end Sys2Proof.Machine

/-! Every step keeps the legal states: the transmitter's steps, and the cases of step_effect put together. -/

namespace Sys2Proof.Machine

/-- A byte sent leads to a legal state (40_transport R401). -/
theorem legal_sendByte (b : Byte) (rest : List Byte) (s : State) (h : Legal s) (hseq : s.seq = .tx)
    (hq : s.txq = b :: rest) : Legal (sendByte b rest s) := by
  obtain ⟨harmed, hready, hlen⟩ := h.sending hseq
  rw [hq, List.length_cons] at hlen
  have hsend : sendByte b rest s = { { s with txq := rest, sent := s.sent ++ [b] } with seq := .tx } := by
    rw [sendByte_eq, ← hseq, ← h.line]
  rw [hsend]
  exact Responding.legal { h.inRange with queue := show rest.length ≤ 11 by omega, search := h.search } harmed hready

/-- The end of a response leads to a legal state (40_transport R405). -/
theorem legal_endResponse (s : State) (h : Legal s) (hq : s.txq = []) : Legal (endResponse s) := by
  rw [endResponse_eq]
  refine legal_armWindow _ { h.inRange with } ?_ hq ?_
  · cases hm : s.mode <;> simp
  · cases hm : s.mode <;> simp
    exact h.search hm

/-- Every effect of a step on a legal state leads to a legal state. -/
theorem legal_of_did (p : Prop) (s t : State) (h : Legal s) (hd : Did p s t) : Legal t := by
  cases hd with
  | nothing => exact h
  | opened _ ready ho => exact legal_openWindow s t h ready.1 ready.2.2.2 ho
  | captured e l _ ready hl he hc => exact legal_captureEdge e l s t h ready.1 ready.2.2 hl he.2 hc
  | expired ready => exact legal_expire s h ready.1 ready.2.2
  | wasReset _ => exact legal_resetBlock s h
  | configured i w ready _ ha => exact legal_configured i s w h ready.1 ready.2 ha
  | surveyed m ready hm => exact legal_surveyed s m h ready.1 ready.2 hm
  | sent b rest ready => exact legal_sendByte b rest s h ready.1 ready.2
  | ended ready => exact legal_endResponse s h ready.2

/-- Settles O53: each effect that a step can have keeps the legal states. -/
theorem everyStepKeepsLegal : Obligations.EveryStepKeepsLegal := by
  intro s t hlegal hstep
  obtain ⟨inp, hd⟩ := step_effect s t hstep
  exact legal_of_did _ _ t (legal_input s inp hlegal) hd

end Sys2Proof.Machine

/-! No fault and no stale slot (20_memory R203, R205): what a step answers in two states that agree but for slots that the
current window has not written. -/

namespace Sys2Proof.Machine

/-- An edge after at most nine names a slot that exists. -/
theorem captureEdge_answers (e : Nat) (s : State) (h : s.edgeCnt.toNat ≤ 9) : ∃ t, captureEdge e s = .ok t := by
  rw [captureEdge_eq]
  by_cases hlt : s.edgeCnt.toNat < 9
  · exact ⟨_, if_pos hlt⟩
  · exact ⟨_, (if_neg hlt).trans (if_pos (by omega))⟩

/-- A later edge of a legal state does not fault. -/
theorem nextEdge_ne_fault (p : Polarity) (e : Nat) (s : State) (f : Fault) (h : Legal s) :
    nextEdge p e s ≠ .fault f := by
  unfold nextEdge
  split
  · nofun
  · rename_i haccepted
    split
    · rename_i hopen
      have hseq := ((edgeIgnored_eq_false p s).mp (Bool.eq_false_of_not_eq_true haccepted)).1
      obtain ⟨⟨-, h9⟩, -, -⟩ := h.opened hseq hopen
      obtain ⟨t, ht⟩ := captureEdge_answers e s h9
      rw [ht]
      split
      · nofun
      · split
        · nofun
        · split <;> nofun
    · nofun

/-- No instruction that a step may run faults in a legal state. -/
theorem exec_ne_fault (s u : State) (i : Instr) (f : Fault) (hr : Runs s i) (h : Legal u) : exec i u ≠ .fault f := by
  cases hr with
  | capOpen e =>
    show execCapOpen e u ≠ _
    unfold execCapOpen
    rw [openWindow_eq]
    split
    · nofun
    · split <;> nofun
  | capNextF e => exact nextEdge_ne_fault .falling e u f h
  | capNextR e => exact nextEdge_ne_fault .rising e u f h
  | capExpire => exact onlyIf_fault _ _ _ f
  | reset _ => nofun
  | procConfigure _ =>
    show execProcConfigure u ≠ _
    unfold execProcConfigure
    split
    · split
      · nofun
      · split <;> nofun
    · nofun
  | procSurvey _ =>
    show execProcSurvey u ≠ _
    unfold execProcSurvey
    rw [measureWindow_eq]
    split <;> nofun
  | txSend _ =>
    show execTxSend u ≠ _
    unfold execTxSend
    split <;> nofun
  | txDone _ => exact onlyIf_fault _ _ _ f

/-- No step of a legal state faults. -/
theorem step_ne_fault (s : State) (f : Fault) (h : Legal s) : step s ≠ .fault f := by
  unfold step advance
  split
  · rename_i i v hf
    obtain ⟨⟨inp, rfl⟩, hr⟩ := fetch_run s v i hf
    exact exec_ne_fault s _ i f hr (legal_input s inp h)
  · nofun
  · nofun

/-- Where the first answer is a next state, so is the second, and the two agree but for stale slots. -/
def AnswersAgree (r r' : Result) : Prop :=
  ∀ s', r = .next s' → ∃ t', r' = .next t' ∧ AgreeButStaleSlots s' t'

/-- Next states that agree are answers that agree. -/
theorem answersAgree_next {s t : State} (h : AgreeButStaleSlots s t) : AnswersAgree (.next s) (.next t) := by
  rintro _ ⟨⟩
  exact ⟨t, rfl, h⟩

/-- A refusal asks nothing of the other answer. -/
theorem answersAgree_refused (r : Refusal) (r' : Result) : AnswersAgree (.refused r) r' :=
  fun _ h => nomatch h

/-- A fault asks nothing of the other answer. -/
theorem answersAgree_fault (f : Fault) (r' : Result) : AnswersAgree (.fault f) r' :=
  fun _ h => nomatch h

/-- Answers that branch on one condition agree where their branches do. -/
theorem answersAgree_ite (c : Prop) [Decidable c] {r₁ r₁' r₂ r₂' : Result} (h₁ : c → AnswersAgree r₁ r₁')
    (h₂ : ¬c → AnswersAgree r₂ r₂') : AnswersAgree (if c then r₁ else r₂) (if c then r₁' else r₂') := by
  split
  · exact h₁ ‹_›
  · exact h₂ ‹_›

/-- Guarded effects that agree where the guard holds are answers that agree. -/
theorem answersAgree_onlyIf (b : Bool) (r : Refusal) (s t : State) (h : b = true → AgreeButStaleSlots s t) :
    AnswersAgree (onlyIf b r s) (onlyIf b r t) := by
  cases b with
  | false => exact answersAgree_refused r _
  | true => exact answersAgree_next (h rfl)

/-- With no live slot any two windows agree. -/
theorem agree_of_no_live_slots (s : State) (m : Window) (h : liveSlots s = 0) :
    AgreeButStaleSlots s { s with sample := m } :=
  ⟨rfl, fun i hi => absurd hi (by omega)⟩

/-- A write of the slot after the live ones keeps the windows agreeing, and on that slot too. -/
theorem read_write_agree (n : Nat) (v : Count) (m m' : Window) (h : ∀ i, i < n → Memory.read i m' = Memory.read i m) :
    ∀ i, i < n + 1 → Memory.read i (Memory.write n v m') = Memory.read i (Memory.write n v m) := by
  intro i hi
  rw [Memory.read_write, Memory.read_write]
  split
  · rfl
  · exact h i (by omega)

/-- CAP_OPEN looks at no slot, and makes slot 0 live. -/
theorem execCapOpen_agree (e : Nat) (s : State) (m : Window) (ha : AgreeButStaleSlots s { s with sample := m }) :
    AnswersAgree (execCapOpen e s) (execCapOpen e { s with sample := m }) := by
  refine answersAgree_ite (edgeIgnored .falling s = true) (fun _ => answersAgree_next ha) fun haccepted => ?_
  refine answersAgree_ite (s.winOpen = true) (fun _ => answersAgree_refused _ _) fun _ => ?_
  obtain ⟨hseq, -, -⟩ := (edgeIgnored_eq_false .falling s).mp (Bool.eq_false_of_not_eq_true haccepted)
  rw [openWindow_eq, openWindow_eq]
  refine answersAgree_next ⟨rfl, ?_⟩
  simp only [liveSlots, hseq]
  exact read_write_agree 0 0 s.sample m fun i hi => absurd hi (Nat.not_lt_zero i)

/-- A captured edge looks at no slot, and makes the slot it writes live. -/
theorem captureEdge_agree (e : Nat) (s : State) (m : Window) (hseq : s.seq = .wait) (hopen : s.winOpen = true)
    (ha : AgreeButStaleSlots s { s with sample := m }) :
    AnswersAgree (orFault (captureEdge e s)) (orFault (captureEdge e { s with sample := m })) := by
  have hlive : liveSlots s = s.edgeCnt.toNat := by simp [liveSlots, hseq, hopen]
  have hreads := read_write_agree s.edgeCnt.toNat (capturedValue e s) s.sample m (hlive ▸ ha.2)
  rw [captureEdge_eq, captureEdge_eq]
  split
  · have hcount : (captured e s).edgeCnt.toNat = s.edgeCnt.toNat + 1 := edgeCnt_succ s (by omega)
    refine answersAgree_next ⟨rfl, ?_⟩
    have : liveSlots (captured e s) = s.edgeCnt.toNat + 1 := by
      rw [← hcount]; simp [liveSlots, captured, hseq, hopen]
    rw [this]
    exact hreads
  · split
    · have hcount : (captured e s).edgeCnt.toNat = s.edgeCnt.toNat + 1 := edgeCnt_succ s (by omega)
      refine answersAgree_next ⟨rfl, ?_⟩
      have : liveSlots (closeWindow .complete (captured e s)) = s.edgeCnt.toNat + 1 := hcount
      rw [this]
      exact hreads
    · exact answersAgree_fault _ _

/-- CAP_NEXT looks at no slot. -/
theorem nextEdge_agree (p : Polarity) (e : Nat) (s : State) (m : Window)
    (ha : AgreeButStaleSlots s { s with sample := m }) :
    AnswersAgree (nextEdge p e s) (nextEdge p e { s with sample := m }) := by
  refine answersAgree_ite (edgeIgnored p s = true) (fun _ => answersAgree_next ha) fun haccepted => ?_
  refine answersAgree_ite (s.winOpen = true) (fun hopen => ?_) fun _ => answersAgree_refused _ _
  obtain ⟨hseq, -, -⟩ := (edgeIgnored_eq_false p s).mp (Bool.eq_false_of_not_eq_true haccepted)
  have hcapture := captureEdge_agree e s m hseq hopen ha
  cases limit s.cfg s.mode with
  | none => exact answersAgree_refused _ _
  | some l =>
    exact answersAgree_ite (e ≤ s.elapsed) (fun _ => answersAgree_refused _ _) fun _ =>
      answersAgree_ite (l ≤ e) (fun _ => answersAgree_refused _ _) fun _ => hcapture

/-- CAP_EXPIRE looks at no slot, and the live slots of the window stay live. -/
theorem execCapExpire_agree (s : State) (m : Window) (ha : AgreeButStaleSlots s { s with sample := m }) :
    AnswersAgree (execCapExpire s) (execCapExpire { s with sample := m }) := by
  refine answersAgree_onlyIf (timerRuns s) _ _ _ fun hruns => ⟨rfl, ?_⟩
  obtain ⟨⟨hseq, -⟩, hopen⟩ : (s.seq = .wait ∧ s.armed = true) ∧ s.winOpen = true := by simpa [timerRuns] using hruns
  have hlive : liveSlots (closeWindow .expired s) = liveSlots s := by simp [liveSlots, hseq, hopen]
  rw [hlive]
  exact ha.2

/-- No configure command looks at a slot. -/
theorem applyCommand_sample (i : Instr) (s : State) (m : Window) :
    applyCommand i { s with sample := m } = (applyCommand i s).map fun t => { t with sample := m } := by
  cases i <;> rfl

/-- PROC_CONFIGURE looks at no slot. -/
theorem execProcConfigure_agree (s : State) (m : Window) :
    AnswersAgree (execProcConfigure s) (execProcConfigure { s with sample := m }) := by
  intro s' h
  obtain ⟨hproc, i, u, hd, happly, rfl⟩ := execProcConfigure_next s s' h
  have happly' : applyCommand i { s with ready := false, sample := m } = some { u with sample := m } := by
    rw [applyCommand_sample i { s with ready := false } m, happly]
    rfl
  have hproc' : procConfigures { s with sample := m } = true := hproc
  have hd' : decode (tableCtx { s with sample := m }) ⟨.cmdCount, s.edgeCnt.setWidth 8, 0⟩ = .ok i := hd
  refine ⟨{ u with sample := m, seq := .tx }, ?_, agree_of_no_live_slots { u with seq := .tx } m rfl⟩
  simp [execProcConfigure, hproc', hd', happly']

/-- Measuring a closed window reads live slots only (20_memory R203). -/
theorem measureWindow_sample (s u : State) (m : Window) (h : Legal s) (hseq : s.seq = .proc)
    (ha : AgreeButStaleSlots s { s with sample := m }) (hm : measureWindow s = .ok u) :
    measureWindow { s with sample := m } = .ok { u with sample := m } := by
  obtain hclose | hclose : s.closeCause = .expired ∨ s.closeCause = .complete := by cases s.closeCause <;> simp
  · rw [measureWindow_of_expired s hclose] at hm
    cases hm
    exact measureWindow_of_expired { s with sample := m } hclose
  · obtain ⟨-, -, -, -, -, hten, -⟩ := h.processing hseq
    have hlive : liveSlots s = 10 := by simp [liveSlots, hseq, hten hclose]
    have hkept : keptValues { s with sample := m } = keptValues s :=
      List.map_congr_left fun i hi => congrArg BitVec.toNat <| ha.2 i <| by
        rw [hlive]; exact (show ∀ j ∈ keptSlots, j < 10 by decide) i hi
    rw [measureWindow_of_complete s hclose] at hm
    cases hm
    rw [measureWindow_of_complete { s with sample := m } hclose, hkept]
    rfl

/-- PROC_SURVEY looks at live slots only. -/
theorem execProcSurvey_agree (s : State) (m : Window) (h : Legal s) (hproc : procSurveys s = true)
    (ha : AgreeButStaleSlots s { s with sample := m }) :
    AnswersAgree (execProcSurvey s) (execProcSurvey { s with sample := m }) := by
  have hseq : s.seq = .proc := by
    simp only [procSurveys, Bool.and_eq_true, beq_iff_eq] at hproc
    exact hproc.1
  obtain ⟨u, hu⟩ : ∃ u, measureWindow s = .ok u := ⟨_, measureWindow_eq s⟩
  have hu' := measureWindow_sample s u m h hseq ha hu
  have hsel : selectOutcome { u with sample := m } = selectOutcome u := rfl
  rw [execProcSurvey_of_measured s u hproc hu, execProcSurvey_of_measured { s with sample := m } _ hproc hu', hsel,
    applyOutcome_sample (selectOutcome u) u m]
  exact answersAgree_next (agree_of_no_live_slots { applyOutcome (selectOutcome u) u with seq := .tx } m rfl)

/-- TX_SEND looks at no slot. -/
theorem execTxSend_agree (s : State) (m : Window) : AnswersAgree (execTxSend s) (execTxSend { s with sample := m }) := by
  intro s' h
  obtain ⟨hseq, b, rest, hq, rfl⟩ := execTxSend_next s s' h
  refine ⟨{ sendByte b rest s with sample := m }, ?_, agree_of_no_live_slots _ m ?_⟩
  · simp [execTxSend, hseq, hq, sendByte_eq]
  · simp [liveSlots, sendByte_eq, hseq]

/-- TX_DONE looks at no slot. -/
theorem execTxDone_agree (s : State) (m : Window) : AnswersAgree (execTxDone s) (execTxDone { s with sample := m }) := by
  refine answersAgree_onlyIf (s.seq == .tx && s.txq.isEmpty) _ _ _ fun _ => ?_
  rw [endResponse_eq, endResponse_eq]
  exact agree_of_no_live_slots _ m rfl

/-- What a step may run answers alike in a legal state and in one that agrees with it. -/
theorem exec_agree (s u : State) (i : Instr) (m : Window) (hr : Runs s i) (h : Legal u)
    (hseq : s.seq = u.seq) (hmode : s.mode = u.mode)
    (ha : AgreeButStaleSlots u { u with sample := m }) : AnswersAgree (exec i u) (exec i { u with sample := m }) := by
  cases hr with
  | capOpen e => exact execCapOpen_agree e u m ha
  | capNextF e => exact nextEdge_agree .falling e u m ha
  | capNextR e => exact nextEdge_agree .rising e u m ha
  | capExpire => exact execCapExpire_agree u m ha
  | reset _ => exact answersAgree_next (agree_of_no_live_slots (resetBlock u) m rfl)
  | procConfigure _ => exact execProcConfigure_agree u m
  | procSurvey hp => exact execProcSurvey_agree u m h (by simp [procSurveys, ← hseq, ← hmode, hp]) ha
  | txSend _ => exact execTxSend_agree u m
  | txDone _ => exact execTxDone_agree u m

/-- The internal step waits in the state it is taken in. -/
theorem fetchInternal_idle (s u : State) (h : fetchInternal s = .idle u) : u = s := by
  rw [fetchInternal_eq] at h
  split at h <;> cases h
  rfl

/-- A wait changes nothing but the empty instant. -/
theorem fetch_idle (s u : State) (h : fetch s = .idle u) : ∃ inp, u = { s with input := inp } := by
  unfold fetch at h
  split at h
  · exact ⟨s.input, fetchInternal_idle s u h⟩
  · split at h
    · exact ⟨_, fetchInternal_idle _ u h⟩
    · unfold decodeIn at h
      split at h <;> cases h

/-- A step answers alike in a legal state and in one that agrees with it but for stale slots. -/
theorem step_agree (s t : State) (h : Legal s) (ha : AgreeButStaleSlots s t) : AnswersAgree (step s) (step t) := by
  obtain ⟨ht, hreads⟩ := ha
  obtain ⟨hrun, hidle⟩ := fetch_sample s t.sample
  rw [ht]
  cases hf : fetch s with
  | run i u =>
    obtain ⟨⟨inp, rfl⟩, hr⟩ := fetch_run s u i hf
    rw [step_of_run s _ i hf, step_of_run _ _ i (hrun i _ hf)]
    exact exec_agree s _ i t.sample hr (legal_input s inp h) rfl rfl ⟨rfl, hreads⟩
  | idle u =>
    rw [step_of_idle s u hf, step_of_idle _ _ (hidle u hf)]
    obtain ⟨inp, rfl⟩ := fetch_idle s u hf
    exact answersAgree_next ⟨rfl, hreads⟩
  | reject r =>
    have hstep : step s = .refused (.rejected r) := by simp [step, advance, hf]
    rw [hstep]
    exact answersAgree_refused _ _

/-- Settles O54: the slots a legal step names exist, and of those it reads, in measuring a complete window, all are
live. -/
theorem legalStatesNeverFault : Obligations.LegalStatesNeverFault :=
  ⟨fun s f h => step_ne_fault s f h, fun s t s' h ha hs => step_agree s t h ha s' hs⟩

end Sys2Proof.Machine

/-! The slots are written by the capture unit alone (20_memory R202): what a step makes of the SampleWindow. -/

namespace Sys2Proof.Machine

/-- The capture unit may write slot i: the slot that EDGE_CNT names in an open window, slot 0 where one opens
(41_capture R504, R505). -/
def CapturesInto (s : State) (i : Nat) : Prop :=
  s.seq = .wait ∧ s.armed = true ∧ (s.winOpen = true ∧ i = s.edgeCnt.toNat ∨ s.winOpen = false ∧ i = 0)

/-- A later edge writes one slot, whether or not it is the tenth. -/
theorem captureEdge_sample (e : Nat) (s t : State) (h : captureEdge e s = .ok t) :
    t.sample = Memory.write s.edgeCnt.toNat (capturedValue e s) s.sample := by
  obtain ⟨rfl, -⟩ | ⟨rfl, -⟩ := captureEdge_ok e s t h <;> rfl

/-- Measuring a window and responding to it writes no slot. -/
theorem applyOutcome_measureWindow_sample (s m : State) (o : SurveyOutcome) (h : measureWindow s = .ok m) :
    (applyOutcome o m).sample = s.sample := by
  obtain ⟨a, f, v, hm⟩ := measureWindow_fields s m h
  have hkeeps := congrArg State.sample (applyOutcome_keeps o m _ rfl)
  exact hkeeps.trans (by rw [hm])

/-- Every effect of a step leaves the SampleWindow or writes one slot of the capture unit's. -/
theorem did_sample (p : Prop) (s t : State) (hd : Did p s t) :
    t.sample = s.sample ∨ ∃ i v, CapturesInto s i ∧ t.sample = Memory.write i v s.sample := by
  cases hd with
  | nothing => exact .inl rfl
  | opened _ ready ho =>
    obtain ⟨hseq, harmed, hclosed, -⟩ := ready
    rw [openWindow_eq] at ho
    cases ho
    exact .inr ⟨0, 0, ⟨hseq, harmed, .inr ⟨hclosed, rfl⟩⟩, rfl⟩
  | captured e l _ ready _ _ hc =>
    obtain ⟨hseq, harmed, hopen⟩ := ready
    exact .inr ⟨_, _, ⟨hseq, harmed, .inl ⟨hopen, rfl⟩⟩, captureEdge_sample e s t hc⟩
  | expired _ => exact .inl rfl
  | wasReset _ => exact .inl rfl
  | configured i w _ _ ha =>
    have hkeeps := congrArg State.sample (applyCommand_keeps i _ w ha)
    exact .inl hkeeps
  | surveyed m _ hm => exact .inl (applyOutcome_measureWindow_sample s m _ hm)
  | sent b rest _ => exact .inl (by rw [sendByte_eq])
  | ended _ => exact .inl (by rw [endResponse_eq]; rfl)

/-- Only the slot that is written can read otherwise. -/
theorem eq_of_memRead_ne (s t : State) (i j : Nat) (v : Count) (ht : t.sample = Memory.write i v s.sample)
    (hne : memRead j t ≠ memRead j s) : j = i := by
  by_contra hji
  exact hne (by simp [memRead, ht, Memory.read_write, hji])

/-- Settles O56: the two effects that write a slot are the opening edge and a later one, each of the slot it names. -/
theorem slotsAreWrittenOnlyByTheCaptureUnit : Obligations.SlotsAreWrittenOnlyByTheCaptureUnit := by
  intro s t i hstep hne
  obtain ⟨inp, hd⟩ := step_effect s t hstep
  obtain hsame | ⟨j, v, hcaptures, hwrite⟩ := did_sample _ _ t hd
  · exact absurd (memRead_congr i s t hsame) hne
  · rw [eq_of_memRead_ne s t j i v hwrite hne]
    exact hcaptures

end Sys2Proof.Machine

/-! The decoder and the encoder (30_encoding R311, R320, R345, R346): each against the other, format by format. -/

namespace Sys2Proof

/-- A count of 6 to 10 decodes to CFG_INVALID with that count (30_encoding R311). -/
theorem decodeCount_cfgInvalid (c : BitVec 4) (h : 6 ≤ c.toNat ∧ c.toNat ≤ 10) :
    decodeCount (c.setWidth 8).toNat = .ok (.cfgInvalid c) := by
  obtain ⟨h6, h10⟩ := h
  rw [BitVec.toNat_setWidth_of_le (by decide)]
  obtain ⟨n, rfl⟩ : ∃ n : Fin 16, c = BitVec.ofFin n := ⟨c.toFin, rfl⟩
  have : n = 6 ∨ n = 7 ∨ n = 8 ∨ n = 9 ∨ n = 10 := by simp only [BitVec.toNat_ofFin] at h6 h10; omega
  rcases this with rfl | rfl | rfl | rfl | rfl <;> rfl

/-- Settles O1: by the table's rows; a row with a condition is told from its neighbours by it, and a directed one by
bit 0. -/
theorem decodeOfEncodeIsIdentity : Obligations.DecodeOfEncodeIsIdentity := by
  intro i k hwf hadmits
  cases i with
  | cfgInvalid c => exact decodeCount_cfgInvalid c (of_decide_eq_true hwf)
  | capOpen e | capNextF e =>
    simp only [Instr.admits, Bool.not_eq_true'] at hadmits
    simp [encode, decode, decodeEvent, hadmits]
  | txSend | txDone =>
    simp only [Instr.admits, Bool.not_eq_true'] at hadmits
    simp [encode, decode, decodeStep, hadmits]
  | exactHit | fineRollback | fineCross =>
    simp only [Instr.admits, Bool.and_eq_true, Bool.not_eq_true'] at hadmits
    simp [encode, decode, decodeOutcome, hadmits]
  | coarseMove d => cases d <;> rfl
  | coarseBoundary d | coarseBracket d | fineContinue d | fineBoundary d =>
    simp only [Instr.admits, Bool.not_eq_true'] at hadmits
    cases d <;> simp [encode, decode, decodeOutcome, Dir.bit, dirOfBit, hadmits]
  | _ => rfl

/-- The word w stands for the instruction i under the conditions k: i is well formed, its row's condition holds, and w
is its word, but for the free MODE bits of the transmitter's rows (30_encoding R346, R350). -/
def StandsFor (k : Ctx) (w : Word) (i : Instr) : Prop :=
  i.wf = true ∧ i.admits k = true ∧ (i ≠ .txSend → i ≠ .txDone → encode i = w)

/-- A count that decodes stands for its command. -/
theorem standsFor_of_decodeCount (k : Ctx) (n : Nat) (i : Instr) (h : decodeCount n = .ok i) :
    StandsFor k ⟨.cmdCount, BitVec.ofNat 8 n, 0⟩ i := by
  unfold decodeCount at h
  split at h
  case h_6 =>
    split at h <;> cases h
    obtain ⟨h6, h10⟩ := ‹6 ≤ n ∧ n ≤ 10›
    interval_cases n <;> exact ⟨rfl, rfl, fun _ _ => rfl⟩
  all_goals
    cases h
    exact ⟨rfl, rfl, fun _ _ => rfl⟩

/-- An event code that decodes stands for its event. -/
theorem standsFor_of_decodeEvent (k : Ctx) (code e : Nat) (i : Instr) (h : decodeEvent k code e = .ok i) :
    StandsFor k ⟨.event, BitVec.ofNat 8 code, e⟩ i := by
  unfold decodeEvent at h
  split at h
  · split at h <;> cases h
    · exact ⟨rfl, ‹_›, fun _ _ => rfl⟩
    · exact ⟨rfl, by simpa [Instr.admits] using ‹¬k.winOpen = true›, fun _ _ => rfl⟩
  · cases h
    exact ⟨rfl, rfl, fun _ _ => rfl⟩
  · split at h <;> cases h
    subst e
    exact ⟨rfl, rfl, fun _ _ => rfl⟩
  · split at h <;> cases h
    subst e
    exact ⟨rfl, rfl, fun _ _ => rfl⟩
  · cases h

/-- The transmitter's selectors, in every mode, stand for the step that the queue selects. -/
theorem standsFor_transmit (k : Ctx) (w : Word) (i : Instr)
    (h : (if k.txqEmpty then .ok .txDone else .ok .txSend : Except Reject Instr) = .ok i) : StandsFor k w i := by
  split at h <;> cases h
  · exact ⟨rfl, ‹_›, fun _ hne => absurd rfl hne⟩
  · exact ⟨rfl, by simpa [Instr.admits] using ‹¬k.txqEmpty = true›, fun hne => absurd rfl hne⟩

/-- A selector that decodes stands for its step. -/
theorem standsFor_of_decodeStep (k : Ctx) (n : Nat) (i : Instr) (h : decodeStep k n = .ok i) :
    StandsFor k ⟨.step, BitVec.ofNat 8 n, 0⟩ i := by
  unfold decodeStep at h
  split at h
  · cases h
    exact ⟨rfl, rfl, fun _ _ => rfl⟩
  · cases h
    exact ⟨rfl, rfl, fun _ _ => rfl⟩
  · exact standsFor_transmit k _ i h
  · exact standsFor_transmit k _ i h
  · exact standsFor_transmit k _ i h
  · cases h

/-- A directed status byte is its upper seven bits with the direction in bit 0 (30_encoding R321). -/
theorem or_bit_dirOfBit (b c : Byte) (h : b &&& 0xFE#8 = c) : c ||| (dirOfBit b).bit = b := by
  subst h
  revert b
  decide

/-- A status byte that decodes stands for its outcome. -/
theorem standsFor_of_decodeOutcome (k : Ctx) (b : Byte) (i : Instr) (h : decodeOutcome k b = .ok i) :
    StandsFor k ⟨.surveyOutcome, b, 0⟩ i := by
  have directed (c : Byte) (hc : b &&& 0xFE#8 = c) :
      (⟨.surveyOutcome, c ||| (dirOfBit b).bit, 0⟩ : Word) = ⟨.surveyOutcome, b, 0⟩ := by
    rw [or_bit_dirOfBit b c hc]
  unfold decodeOutcome at h
  split at h
  · split_ifs at h <;> cases h <;> exact ⟨rfl, by simp_all [Instr.admits], fun _ _ => rfl⟩
  · cases h
    exact ⟨rfl, rfl, fun _ _ => rfl⟩
  · split_ifs at h <;> cases h <;> exact ⟨rfl, by simp_all [Instr.admits], fun _ _ => directed _ ‹_›⟩

/-- A byte that decodes as a reply stands for the reply. -/
theorem standsFor_of_decodeReply (k : Ctx) (b : Byte) (i : Instr) (h : decodeReply b = .ok i) :
    StandsFor k ⟨.reply, b, 0⟩ i := by
  unfold decodeReply at h
  split at h <;> cases h <;> exact ⟨rfl, rfl, fun _ _ => rfl⟩

/-- A word of a format without the field e decodes only where the field is 0 (30_encoding R345). -/
theorem ok_of_noField (e : Nat) (r : Except Reject Instr) (i : Instr)
    (h : (if e = 0 then r else .error .strayField) = .ok i) : e = 0 ∧ r = .ok i := by
  split at h
  · exact ⟨‹_›, h⟩
  · cases h

/-- Settles O2: format by format; only the event format has the field e. -/
theorem decodedInstructionsReencode : Obligations.DecodedInstructionsReencode := by
  rintro k ⟨format, bits, e⟩ i h
  show StandsFor k ⟨format, bits, e⟩ i
  have hbits : BitVec.ofNat 8 bits.toNat = bits := by simp
  cases format with
  | event => exact hbits ▸ standsFor_of_decodeEvent k bits.toNat e i h
  | cmdCount =>
    obtain ⟨rfl, hcount⟩ := ok_of_noField e _ i h
    exact hbits ▸ standsFor_of_decodeCount k bits.toNat i hcount
  | step =>
    obtain ⟨rfl, hstep⟩ := ok_of_noField e _ i h
    exact hbits ▸ standsFor_of_decodeStep k bits.toNat i hstep
  | surveyOutcome =>
    obtain ⟨rfl, houtcome⟩ := ok_of_noField e _ i h
    exact standsFor_of_decodeOutcome k bits i houtcome
  | reply =>
    obtain ⟨rfl, hreply⟩ := ok_of_noField e _ i h
    exact standsFor_of_decodeReply k bits i hreply

end Sys2Proof

/-! The encodings beside the block (30_encoding): frames, command bytes, reply bytes and trailers. -/

namespace Sys2Proof.Machine

/-- Settles O3: the decoder computes. -/
theorem handWrittenWordsDecode : Obligations.HandWrittenWordsDecode := ⟨rfl, rfl, rfl, rfl, rfl⟩

/-- The low n bits of a number, weighed, are the number modulo 2^n (30_encoding R304). -/
theorem weigh_testBit (n x : Nat) : weigh ((List.range n).map x.testBit) = x % 2 ^ n := by
  induction n generalizing x with
  | zero => simp [weigh, Nat.mod_one]
  | succ n ih =>
    have htail : (x.testBit ∘ Nat.succ) = (x / 2).testBit := funext fun i => Nat.testBit_succ x i
    rw [List.range_succ_eq_map, List.map_cons, List.map_map, htail, weigh, ih, Nat.testBit_zero, Nat.pow_succ',
      Nat.mod_mul]
    by_cases h : x % 2 = 1
    · simp [h]
    · simp [Nat.mod_two_ne_one.mp h]

/-- Settles O5: the data bits of a frame weigh the byte. -/
theorem frameRoundTrip : Obligations.FrameRoundTrip := by
  intro b
  have hweigh : frameDecode (frameLevels b) = some (BitVec.ofNat 8 (weigh ((List.range 8).map b.toNat.testBit))) := rfl
  rw [hweigh, weigh_testBit, Nat.mod_eq_of_lt b.isLt, BitVec.ofNat_toNat, BitVec.setWidth_eq]

/-- The falling edges among the edges of a list of levels are the falls of the levels (30_encoding R356). -/
theorem edgesFrom_falling (p : Nat) (prev : Bool) (k : Nat) (ls : List Bool) :
    ((edgesFrom p prev k ls).filter (fun ev => decide (ev.code = 0))).length = fallsAfter prev ls := by
  induction ls generalizing prev k with
  | nil => rfl
  | cons l ls ih =>
    rw [edgesFrom, fallsAfter, ← ih l (k + 1)]
    cases l <;> cases prev <;> simp [edgeInto, Nat.add_comm]

/-- Two levels are needed for a fall: n levels after a high one have at most half of n + 1 falls, after a low one half
of n. -/
theorem two_mul_fallsAfter_le (prev : Bool) (ls : List Bool) : 2 * fallsAfter prev ls ≤ ls.length + prev.toNat := by
  induction ls generalizing prev with
  | nil => simp [fallsAfter]
  | cons l ls ih =>
    have := ih l
    cases l <;> cases prev <;> simp [fallsAfter] at this ⊢ <;> omega

/-- A line that goes high, or stays so, does not fall. -/
theorem fallsAfter_append_true (prev : Bool) (ls : List Bool) :
    fallsAfter prev (ls ++ [true]) = fallsAfter prev ls := by
  induction ls generalizing prev with
  | nil => simp [fallsAfter]
  | cons l ls ih => rw [List.cons_append, fallsAfter, fallsAfter, ih]

/-- The data bits of a frame, least significant first (30_encoding R303). -/
def dataBits (b : Byte) : List Bool := (List.range 8).map b.getLsbD

/-- A frame is the start bit, the data bits and the stop bit. -/
theorem frameLevels_eq (b : Byte) : frameLevels b = false :: (dataBits b ++ [true]) := rfl

/-- A frame falls at the start bit, and then as its data bits do. -/
theorem fallingEdges_eq (b : Byte) : fallingEdges b = 1 + fallsAfter false (dataBits b) := by
  simp [fallingEdges, dataBits, fallsAfter, List.range_succ, ← List.countP_eq_length_filter, List.countP_cons]
  omega

/-- A frame has one to five falling edges (30_encoding R313). -/
theorem fallingEdges_range (b : Byte) : 1 ≤ fallingEdges b ∧ fallingEdges b ≤ 5 := by
  have hle : 2 * fallsAfter false (dataBits b) ≤ 8 := two_mul_fallsAfter_le false (dataBits b)
  rw [fallingEdges_eq]
  omega

/-- Settles O6: the events of the frame's levels fall as the levels do. -/
theorem hostByteHasItsFallingEdges : Obligations.HostByteHasItsFallingEdges := by
  refine fun b p => ⟨?_, fallingEdges_range b⟩
  rw [hostByte, edgesFrom_falling, fallsAfter_append_true, frameLevels_eq, fallsAfter, fallsAfter_append_true,
    fallingEdges_eq]
  rfl

/-- Settles O7: the five canonical bytes, and the seven bytes of one run of ones, byte by byte. -/
theorem canonicalBytesGiveTheirCount : Obligations.CanonicalBytesGiveTheirCount := by
  refine ⟨fun n b h => ?_, fun n h1 h5 => ?_, fun n p h1 h7 => ?_⟩
  · unfold commandByte at h
    split at h <;> cases h <;> decide
  · interval_cases n <;> rfl
  · interval_cases n <;> exact ⟨by decide, rfl⟩

/-- Settles O8: reply by reply. -/
theorem replyClassStandsInHighBits : Obligations.ReplyClassStandsInHighBits :=
  ⟨fun r => by cases r <;> rfl, by decide, by decide⟩

/-- The numbers of a u32's bytes, least significant first (20_memory R215). -/
theorem littleEndian_toNat (v : BitVec 32) :
    (littleEndian v).map BitVec.toNat =
      [v.toNat % 256, v.toNat / 256 % 256, v.toNat / 65536 % 256, v.toNat / 16777216] := by
  have := v.isLt
  simp [littleEndian, BitVec.extractLsb'_toNat, Nat.shiftRight_eq_div_pow]
  omega

/-- Settles O9: two u32 and two bytes. -/
theorem trailerLayout : Obligations.TrailerLayout := by
  intro f v fine coarse
  rw [trailer, List.map_append, List.map_append, littleEndian_toNat, littleEndian_toNat]
  rfl

end Sys2Proof.Machine

/-! Which instruction a step runs (30_encoding R345, R346), for an event presented alone and for none. -/

namespace Sys2Proof.Machine

/-- Of one event, the block takes that event, whatever its kind (60_exceptions R903). -/
theorem takeEvent_singleton (ev : Event) : takeEvent [ev] = some (ev, []) := by
  unfold takeEvent takeBy
  cases hreserved : isReserved ev <;> cases hreset : isReset ev <;> cases hexpire : isExpire ev <;>
    simp [hreserved, hreset, hexpire]

/-- An event presented alone is decoded, on the state with it taken from the input. -/
theorem fetch_of_event (s : State) (ev : Event) (later : List (List Event)) (h : s.input = [ev] :: later) :
    fetch s = decodeIn { s with input := later } (eventWord ev) := by
  simp [fetch, h, takeEvent_singleton, stillToCome]

/-- A step that fetches a word which is no instruction refuses it. -/
theorem step_of_reject (s : State) (r : Reject) (h : fetch s = .reject r) : step s = .refused (.rejected r) := by
  simp [step, advance, h]

/-- A word that decodes is run. -/
theorem decodeIn_of_ok (s : State) (w : Word) (i : Instr) (h : decode (tableCtx s) w = .ok i) :
    decodeIn s w = .run i s := by
  simp [decodeIn, h]

/-- A word that does not decode is rejected. -/
theorem decodeIn_of_error (s : State) (w : Word) (r : Reject) (h : decode (tableCtx s) w = .error r) :
    decodeIn s w = .reject r := by
  simp [decodeIn, h]

/-- Settles O10: the events to come are no part of the conditions a word is decoded under. -/
theorem stepRunsThePresentedEvent : Obligations.StepRunsThePresentedEvent := by
  intro s ev later i hinput hdecode
  have hfetch := fetch_of_event s ev later hinput
  rw [decodeIn_of_ok { s with input := later } (eventWord ev) i hdecode] at hfetch
  exact step_of_run s _ i hfetch

/-- Settles O4: the decoder rejects the four codes by name. -/
theorem reservedEventCodesAreRefused : Obligations.ReservedEventCodesAreRefused := by
  intro s code e later hcode hinput
  have hreject (k : Ctx) : decode k (eventWord ⟨code, e⟩) = .error (.reservedEvent code.toNat) := by
    rcases hcode with rfl | rfl | rfl | rfl <;> rfl
  have hfetch := fetch_of_event s ⟨code, e⟩ later hinput
  rw [decodeIn_of_error _ _ _ (hreject _)] at hfetch
  exact step_of_reject s _ hfetch

/-- With nothing to come the block takes its internal step. -/
theorem fetch_of_nothing_to_come (s : State) (h : s.input = []) : fetch s = fetchInternal s := by
  simp [fetch, h]

/-- At an empty instant the block takes its internal step, with the instant gone. -/
theorem fetch_of_empty_instant (s : State) (later : List (List Event)) (h : s.input = [] :: later) :
    fetch s = fetchInternal { s with input := later } := by
  simp [fetch, h, takeEvent, takeBy]

/-- Outside WAIT the internal step is the one that the step word decodes to (30_encoding R346). -/
theorem fetchInternal_of_decode (s : State) (i : Instr) (hseq : s.seq ≠ .wait)
    (h : decode (tableCtx s) (stepWord s) = .ok i) : fetchInternal s = .run i s := by
  unfold fetchInternal
  split
  · exact absurd ‹_› hseq
  · exact decodeIn_of_ok s _ i h
  · exact decodeIn_of_ok s _ i h

/-- Settles O11: the internal step by SEQ, MODE and TXQ. -/
theorem stepRunsTheSelectedStep : Obligations.StepRunsTheSelectedStep := by
  refine ⟨fun s i hseq hdecode => ⟨fun hinput => ?_, fun later hinput => ?_⟩, fun s hinput => ?_⟩
  · have hfetch := fetch_of_nothing_to_come s hinput
    exact step_of_run s s i (hfetch.trans (fetchInternal_of_decode s i hseq hdecode))
  · have hfetch := fetch_of_empty_instant s later hinput
    exact step_of_run s _ i (hfetch.trans (fetchInternal_of_decode { s with input := later } i hseq hdecode))
  · have hfetch := fetch_of_nothing_to_come s hinput
    rw [fetchInternal_eq] at hfetch
    refine ⟨fun hseq hmode => ?_, fun hseq hmode => ?_, fun hseq hmode => ?_, fun hseq hq => ?_, fun hseq hq => ?_⟩
    · exact step_of_run s s _ (by simp [hfetch, hseq, hmode])
    · exact step_of_run s s _ (by simp [hfetch, hseq, hmode])
    · exact step_of_reject s _ (by simp [hfetch, hseq, hmode])
    · exact step_of_run s s _ (by simp [hfetch, hseq, hq])
    · exact step_of_run s s _ (by simp [hfetch, hseq, hq])

end Sys2Proof.Machine

/-! The replies (30_encoding R320, R322): each row queues its byte, and a command's acknowledgement names its count. -/

namespace Sys2Proof.Machine

/-- The table row of a reply (opcode_table.json). -/
def replyInstr : Reply → Instr
  | .ack1 => .ack1
  | .ack2 => .ack2
  | .ack3 => .ack3
  | .ack4 => .ack4
  | .ack5 => .ack5
  | .error => .error
  | .cdec => .cdec
  | .cinc => .cinc
  | .fdec => .fdec
  | .finc => .finc
  | .min => .min
  | .max => .max
  | .finish => .finish

/-- A reply's row is Emit of its byte where the reply may be emitted, and has no step elsewhere. -/
theorem exec_replyInstr (r : Reply) (s : State) :
    exec (replyInstr r) s = onlyIf (mayReply r s) .notReplying (emitReply r s) := by
  cases r <;> rfl

/-- A reply that is emitted changes TXQ only, by its byte. -/
theorem emits_emitReply (r : Reply) (s : State) : Emits [] [replyByte r] s (emitReply r s) := by
  refine ⟨fun q _ => ?_, fun _ _ => rfl, ⟨rfl, rfl, rfl⟩, rfl⟩
  cases q <;> rfl

/-- The reply rows with their bytes and the modes that emit them (30_encoding R320). -/
def replyTable : List (Instr × Byte × List Mode) :=
  [Reply.ack1, .ack2, .ack3, .ack4, .ack5, .error, .cdec, .cinc, .fdec, .finc, .min, .max, .finish].map
    fun r => (replyInstr r, replyByte r, replyModes r)

/-- Settles O45: the table's rows are the replies. -/
theorem repliesEmitTheirByte : Obligations.RepliesEmitTheirByte := by
  intro s i b modes hrow hseq hmode
  obtain ⟨r, -, hr⟩ := List.mem_map.mp (show (i, b, modes) ∈ replyTable from hrow)
  cases hr
  have henabled : mayReply r s = true := by simp [mayReply, hseq, hmode]
  exact ⟨emitReply r s, by rw [exec_replyInstr, henabled]; rfl, emits_emitReply r s⟩

/-- A count of 1 to 5 is a command that queues 0xA0 | n and nothing else (30_encoding R311, R322). -/
theorem decodeCount_acknowledges (n : Nat) (h1 : 1 ≤ n) (h5 : n ≤ 5) :
    ∃ i, decodeCount n = .ok i ∧
      ∀ s, ∃ t, applyCommand i s = some t ∧ t.txq = s.txq ++ [0xA0#8 ||| BitVec.ofNat 8 n] := by
  interval_cases n <;> exact ⟨_, rfl, fun _ => ⟨_, rfl, rfl⟩⟩

/-- PROC_CONFIGURE runs the command that the count decodes to, with READY consumed and SEQ <- TX (43_configure R700). -/
theorem execProcConfigure_of_command (s t : State) (i : Instr) (hseq : s.seq = .proc) (hmode : s.mode = .configure)
    (hi : decodeCount s.edgeCnt.toNat = .ok i) (ht : applyCommand i { s with ready := false } = some t) :
    execProcConfigure s = .next { t with seq := .tx } := by
  have henabled : procConfigures s = true := by simp [procConfigures, hseq, hmode]
  have hbits : (s.edgeCnt.setWidth 8).toNat = s.edgeCnt.toNat := BitVec.toNat_setWidth_of_le (by decide)
  have hdecode : decode (tableCtx s) ⟨.cmdCount, s.edgeCnt.setWidth 8, 0⟩ = .ok i := by simp [decode, hbits, hi]
  simp [execProcConfigure, henabled, hdecode, ht]

/-- Settles O25: the command that the count decodes to queues the acknowledgement. -/
theorem ackEchoesTheCount : Obligations.AckEchoesTheCount := by
  intro s hseq hmode h1 h5
  obtain ⟨i, hi, happly⟩ := decodeCount_acknowledges s.edgeCnt.toNat h1 h5
  obtain ⟨t, ht, hq⟩ := happly { s with ready := false }
  exact ⟨_, execProcConfigure_of_command s t i hseq hmode hi ht, by rw [← BitVec.ofNat_toNat]; exact hq⟩

end Sys2Proof.Machine

/-! The events of a window one step each (41_capture): the rules by which a frame's edges are run. -/

namespace Sys2Proof.Machine

/-- n steps from s lead to t. -/
def RunsTo (n : Nat) (s t : State) : Prop := Sys2Proof.core.run n s = .next t

/-- A run of no step. -/
theorem RunsTo.refl (s : State) : RunsTo 0 s s := rfl

/-- A run of n + 1 steps is a step and a run of n. -/
theorem run_succ_of_next (M : Host.Core) (n : Nat) (s t : M.State) (h : M.step s = .next t) :
    M.run (n + 1) s = M.run n t := by
  rw [Host.Core.run, h]

/-- A step and then a run. -/
theorem RunsTo.head {n : Nat} {s t u : State} (h : step s = .next t) (hrun : RunsTo n t u) : RunsTo (n + 1) s u :=
  (run_succ_of_next Sys2Proof.core n s t h).trans hrun

/-- A run of n + 1 steps to a state starts with a step to one. -/
theorem run_succ_eq_next (M : Host.Core) (n : Nat) (s u : M.State) (h : M.run (n + 1) s = .next u) :
    ∃ t, M.step s = .next t ∧ M.run n t = .next u := by
  rw [Host.Core.run] at h
  split at h
  · exact ⟨_, ‹_›, h⟩
  · cases h
  · cases h

/-- A run and then a step. -/
theorem RunsTo.tail {n : Nat} {s t u : State} (hrun : RunsTo n s t) (h : step t = .next u) : RunsTo (n + 1) s u := by
  induction n generalizing s with
  | zero =>
    cases hrun
    exact RunsTo.head h (.refl u)
  | succ n ih =>
    obtain ⟨v, hv, hrest⟩ := run_succ_eq_next Sys2Proof.core n s t hrun
    exact RunsTo.head hv (ih hrest)

/-- A later edge of the expected polarity, in its time, is captured (41_capture R503, R505). -/
theorem nextEdge_of_expected (p : Polarity) (e lim : Nat) (s : State) (hseq : s.seq = .wait) (harmed : s.armed = true)
    (hopen : s.winOpen = true) (hpol : s.expPol = p) (hlimit : limit s.cfg s.mode = some lim)
    (hafter : s.elapsed < e) (hbefore : e < lim) : nextEdge p e s = orFault (captureEdge e s) := by
  have haccepted : edgeIgnored p s = false := (edgeIgnored_eq_false p s).mpr ⟨hseq, harmed, hpol⟩
  simp [nextEdge, haccepted, hopen, hlimit, Nat.not_le.mpr hafter, Nat.not_le.mpr hbefore]

/-- An edge of the other polarity is passed over (41_capture R502). -/
theorem nextEdge_of_unexpected (p : Polarity) (e : Nat) (s : State) (hpol : s.expPol ≠ p) :
    nextEdge p e s = .next s := by
  have hignored : edgeIgnored p s = true := by simp [edgeIgnored, hpol.symm]
  rw [nextEdge, if_pos hignored]

/-- The opening edge of an armed window is taken (41_capture R504). -/
theorem execCapOpen_of_armed (e : Nat) (s : State) (hseq : s.seq = .wait) (harmed : s.armed = true)
    (hclosed : s.winOpen = false) (hpol : s.expPol = .falling) : execCapOpen e s = orFault (openWindow s) := by
  have haccepted : edgeIgnored .falling s = false := (edgeIgnored_eq_false _ s).mpr ⟨hseq, harmed, hpol⟩
  simp [execCapOpen, haccepted, hclosed]

/-- The polarity of the edge into a level (30_encoding R345). -/
def polarityInto (level : Bool) : Polarity := if level then .rising else .falling

/-- With a window open an edge is a CAP_NEXT of its polarity. -/
theorem step_of_later_edge (s : State) (l : Bool) (e : Nat) (later : List (List Event)) (hopen : s.winOpen = true)
    (hinput : s.input = [edgeInto l e] :: later) :
    step s = nextEdge (polarityInto l) e { s with input := later } := by
  have hdecode : decode (tableCtx s) (eventWord (edgeInto l e)) = .ok (edgeInstr (polarityInto l) e) := by
    cases l <;> simp [decode, decodeEvent, eventWord, edgeInto, polarityInto, edgeInstr, tableCtx, hopen]
  rw [stepRunsThePresentedEvent s _ later _ hinput hdecode]
  cases l <;> rfl

/-- A later edge of the expected polarity, in its time, is captured. -/
theorem step_of_expected_edge (s : State) (l : Bool) (e lim : Nat) (later : List (List Event)) (hseq : s.seq = .wait)
    (harmed : s.armed = true) (hopen : s.winOpen = true) (hpol : s.expPol = polarityInto l)
    (hlimit : limit s.cfg s.mode = some lim) (hafter : s.elapsed < e) (hbefore : e < lim)
    (hinput : s.input = [edgeInto l e] :: later) : step s = orFault (captureEdge e { s with input := later }) := by
  rw [step_of_later_edge s l e later hopen hinput]
  exact nextEdge_of_expected _ e lim _ hseq harmed hopen hpol hlimit hafter hbefore

/-- What the opening edge leaves (41_capture R504). -/
def afterOpening (s : State) : State :=
  { s with
    cnt := 0, elapsed := 0, sample := Memory.write 0 0 s.sample, edgeCnt := 1, winOpen := true
    expPol := nextPolarity s }

/-- A falling edge opens an armed window (41_capture R504). -/
theorem step_of_opening_edge (s : State) (e : Nat) (later : List (List Event)) (hseq : s.seq = .wait)
    (harmed : s.armed = true) (hclosed : s.winOpen = false) (hpol : s.expPol = .falling)
    (hinput : s.input = [edgeInto false e] :: later) : step s = .next (afterOpening { s with input := later }) := by
  have hdecode : decode (tableCtx s) (eventWord (edgeInto false e)) = .ok (.capOpen e) := by
    simp [decode, decodeEvent, eventWord, edgeInto, tableCtx, hclosed]
  rw [stepRunsThePresentedEvent s _ later _ hinput hdecode]
  exact execCapOpen_of_armed e { s with input := later } hseq harmed hclosed hpol

/-- The expiry closes an open window (41_capture R509). -/
theorem step_of_expiry (s : State) (later : List (List Event)) (hseq : s.seq = .wait) (harmed : s.armed = true)
    (hopen : s.winOpen = true) (hinput : s.input = [expireEvent] :: later) :
    step s = .next (closeWindow .expired { s with input := later }) := by
  rw [stepRunsThePresentedEvent s expireEvent later .capExpire hinput rfl]
  exact (onlyIf_next _ _ _ _).mpr ⟨by simp [timerRuns, hseq, harmed, hopen], rfl⟩

end Sys2Proof.Machine

/-! One frame in a CONFIGURE window (30_encoding R310, R313): the window counts the frame's falling edges. -/

namespace Sys2Proof.Machine

/-- The line stays high after the stop bit, which brings no edge. -/
theorem edgesFrom_append_rest (p : Nat) (prev : Bool) (k : Nat) (ls : List Bool) :
    edgesFrom p prev k (ls ++ [true] ++ [true]) = edgesFrom p prev k (ls ++ [true]) := by
  induction ls generalizing prev k with
  | nil => simp [edgesFrom]
  | cons l ls ih => simp only [List.cons_append, edgesFrom, ih]

/-- A frame's events are the start edge, at once, and the edges of its data bits and stop bit. -/
theorem hostByte_eq (b : Byte) (p : Nat) :
    hostByte b p = edgeInto false 0 :: edgesFrom p false 1 (dataBits b ++ [true]) := by
  rw [hostByte, frameLevels_eq, ← List.cons_append, edgesFrom_append_rest]
  simp [edgesFrom]

/-- The CONFIGURE window of s₀ is open and has counted n falling edges. -/
structure Counting (s₀ : State) (n : Nat) (s : State) : Prop where
  seq : s.seq = .wait
  armed : s.armed = true
  winOpen : s.winOpen = true
  expPol : s.expPol = .falling
  mode : s.mode = .configure
  edgeCnt : s.edgeCnt.toNat = n
  cfg : s.cfg = s₀.cfg
  target : s.target = s₀.target
  txq : s.txq = s₀.txq

/-- The opening edge is the first one counted (41_capture R504). -/
theorem step_opening_counting {s : State} {e : Nat} {later : List (List Event)} (hseq : s.seq = .wait)
    (harmed : s.armed = true) (hclosed : s.winOpen = false) (hpol : s.expPol = .falling) (hmode : s.mode = .configure)
    (hinput : s.input = [edgeInto false e] :: later) :
    ∃ t, step s = .next t ∧ Counting s 1 t ∧ t.elapsed = 0 ∧ t.input = later := by
  refine ⟨_, step_of_opening_edge s e later hseq harmed hclosed hpol hinput, ?_, rfl, rfl⟩
  exact {
    seq := hseq, armed := harmed, winOpen := rfl, expPol := by simp [afterOpening, nextPolarity, hmode, hpol]
    mode := hmode, edgeCnt := rfl, cfg := rfl, target := rfl, txq := rfl }

/-- A rising edge is not counted. -/
theorem Counting.step_rising {s₀ s : State} {n e : Nat} {later : List (List Event)} (h : Counting s₀ n s)
    (hinput : s.input = [edgeInto true e] :: later) :
    ∃ t, step s = .next t ∧ Counting s₀ n t ∧ t.elapsed = s.elapsed ∧ t.input = later := by
  refine ⟨{ s with input := later }, ?_, { h with }, rfl, rfl⟩
  rw [step_of_later_edge s true e later h.winOpen hinput]
  exact nextEdge_of_unexpected _ e _ (by rw [h.expPol]; nofun)

/-- A falling edge within T_CMD is counted (41_capture R505, R506). -/
theorem Counting.step_falling {s₀ s : State} {n e : Nat} {later : List (List Event)} (h : Counting s₀ n s)
    (hn : n < 9) (hafter : s.elapsed < e) (hbefore : e < s₀.cfg.tCmd)
    (hinput : s.input = [edgeInto false e] :: later) :
    ∃ t, step s = .next t ∧ Counting s₀ (n + 1) t ∧ t.elapsed = e ∧ t.input = later := by
  have hlimit : limit s.cfg s.mode = some s₀.cfg.tCmd := by rw [h.cfg, h.mode]; rfl
  have hcount := h.edgeCnt
  have hstep := step_of_expected_edge s false e _ later h.seq h.armed h.winOpen h.expPol hlimit hafter hbefore hinput
  rw [captureEdge_eq, if_pos (show s.edgeCnt.toNat < 9 by omega)] at hstep
  refine ⟨_, hstep, { h with expPol := ?_, edgeCnt := ?_ }, rfl, rfl⟩
  · simp [captured, nextPolarity, h.mode, h.expPol]
  · rw [← hcount]
    exact edgeCnt_succ s (by omega)

/-- The edges of levels that follow one after another within T_CMD are run, and those that fall are counted. -/
theorem Counting.run_edges (s₀ : State) (p : Nat) (hp : 1 ≤ p) (rest : List (List Event)) (ls : List Bool)
    (prev : Bool) (k n : Nat) (s : State) (h : Counting s₀ n s) (hn : n + fallsAfter prev ls ≤ 9)
    (hafter : s.elapsed < k * p) (hbefore : ∀ j, j < k + ls.length → j * p < s₀.cfg.tCmd)
    (hinput : s.input = (edgesFrom p prev k ls).map (fun ev => [ev]) ++ rest) :
    ∃ t, RunsTo (edgesFrom p prev k ls).length s t ∧ Counting s₀ (n + fallsAfter prev ls) t ∧
      t.input = rest := by
  induction ls generalizing prev k n s with
  | nil => exact ⟨s, .refl s, h, hinput⟩
  | cons l ls ih =>
    have hnext : k * p < (k + 1) * p := by rw [Nat.succ_mul]; omega
    rw [List.length_cons] at hbefore
    have hbefore' (j : Nat) (hj : j < k + 1 + ls.length) : j * p < s₀.cfg.tCmd := hbefore j (by omega)
    by_cases hl : l = prev
    · subst l
      have hfalls : fallsAfter prev (prev :: ls) = fallsAfter prev ls := by cases prev <;> simp [fallsAfter]
      rw [hfalls] at hn ⊢
      rw [edgesFrom, if_pos rfl] at hinput ⊢
      exact ih prev (k + 1) n s h hn (by omega) hbefore' hinput
    · rw [edgesFrom, if_neg hl] at hinput ⊢
      rw [List.length_cons]
      cases l with
      | true =>
        have hfalls : fallsAfter prev (true :: ls) = fallsAfter true ls := by simp [fallsAfter]
        rw [hfalls] at hn ⊢
        obtain ⟨u, hstep, hu, helapsed, hlater⟩ := h.step_rising hinput
        obtain ⟨t, hrun, ht⟩ := ih true (k + 1) n u hu hn (by omega) hbefore' hlater
        exact ⟨t, hrun.head hstep, ht⟩
      | false =>
        have hfalls : fallsAfter prev (false :: ls) = 1 + fallsAfter false ls := by
          cases prev with
          | true => simp [fallsAfter]
          | false => exact absurd rfl hl
        rw [hfalls, ← Nat.add_assoc] at hn ⊢
        obtain ⟨u, hstep, hu, helapsed, hlater⟩ := h.step_falling (by omega) hafter (hbefore k (by omega)) hinput
        obtain ⟨t, hrun, ht⟩ := ih false (k + 1) (n + 1) u hu hn (by omega) hbefore' hlater
        exact ⟨t, hrun.head hstep, ht⟩

/-- Settles O59: the start edge opens the window, the frame's falling edges are counted, and the expiry closes it. -/
theorem hostByteIssuesItsCommand : Obligations.HostByteIssuesItsCommand := by
  intro s b p hseq harmed hclosed hpol hmode hp hcmd hinput
  have hfalls : 1 + fallsAfter false (dataBits b ++ [true]) = fallingEdges b := by
    rw [fallsAfter_append_true, fallingEdges_eq]
  have hrange := fallingEdges_range b
  have hbefore (j : Nat) (hj : j < 1 + (dataBits b ++ [true]).length) : j * p < s.cfg.tCmd :=
    (Nat.mul_le_mul_right p (show j ≤ 9 from Nat.le_of_lt_succ hj)).trans_lt hcmd
  rw [hostByte_eq] at hinput ⊢
  obtain ⟨u, hopening, hu, helapsed, hlater⟩ := step_opening_counting hseq harmed hclosed hpol hmode hinput
  obtain ⟨t, hrun, ht, hrest⟩ :=
    hu.run_edges s p hp [[expireEvent]] _ false 1 1 u (by omega) (by omega) hbefore hlater
  have hexpiry := step_of_expiry t [] ht.seq ht.armed ht.winOpen hrest
  have hall := (RunsTo.head hopening hrun).tail hexpiry
  exact ⟨_, hall, rfl, ht.mode, ht.edgeCnt.trans hfalls, rfl, ht.target, ht.txq, rfl⟩

end Sys2Proof.Machine

/-! One cadence frame in a SURVEY window (30_encoding R340): ten edges a bit time apart, and what the estimator makes of
them (42_estimator R601 to R604). -/

namespace Sys2Proof.Machine

/-- Narrowing before a difference changes nothing of the narrowed difference (00_scope R31). -/
theorem trunc_trunc_sub (n : Nat) (a b : Int) : trunc n ((trunc n a : Int) - b) = trunc n (a - b) := by
  have : ((trunc n a : Int) - b) % ((2 ^ n : Nat) : Int) = (a - b) % ((2 ^ n : Nat) : Int) := by
    rw [trunc_eq, Int.emod_sub_emod]
  rw [trunc, this, trunc]

/-- Narrowed values have the narrowed difference of the values (41_capture R505, 42_estimator R601). -/
theorem trunc_sub_trunc (n : Nat) (a b : Int) : trunc n ((trunc n a : Int) - (trunc n b : Int)) = trunc n (a - b) := by
  have : (a - (trunc n b : Int)) % ((2 ^ n : Nat) : Int) = (a - b) % ((2 ^ n : Nat) : Int) := by
    rw [trunc_eq, Int.sub_emod_emod]
  rw [trunc_trunc_sub, trunc, this, trunc]

/-- The number that the capture at time e stores: the time less the latency bias, narrowed (41_capture R505). -/
theorem capturedValue_toNat (e : Nat) (s : State) :
    (capturedValue e s).toNat = trunc s.cfg.cntW ((e : Int) - (s.cfg.latBias : Int)) := by
  rw [capturedValue, truncCount_toNat, truncCount_toNat, trunc_trunc_sub]

/-- The number of a slot stamped at the i-th multiple of P (41_capture R505). -/
def stampOf (c : Config) (p i : Nat) : Nat := trunc c.cntW (((i * p : Nat) : Int) - (c.latBias : Int))

/-- Stamps P apart have durations of P, where P has CNT_W bits. -/
theorem durations_stampOf (c : Config) (p : Nat) (hp : p < 2 ^ c.cntW) (a n : Nat) :
    durations c.cntW ((List.range' a (n + 1)).map (stampOf c p)) = List.replicate n p := by
  induction n generalizing a with
  | zero => rfl
  | succ n ih =>
    have hstep : trunc c.cntW ((stampOf c p (a + 1) : Int) - (stampOf c p a : Int)) = p := by
      have hdiff : (((a + 1) * p : Nat) : Int) - c.latBias - (((a * p : Nat) : Int) - c.latBias) = (p : Int) := by
        push_cast
        ring
      rw [stampOf, stampOf, trunc_sub_trunc, hdiff, trunc_natCast, Nat.mod_eq_of_lt hp]
    have hrest := ih (a + 1)
    rw [List.range'_succ, List.map_cons] at hrest ⊢
    rw [List.range'_succ, List.map_cons, durations, hstep, hrest]
    rfl

/-- Eight equal durations have themselves as mean (42_estimator R602). -/
theorem average_replicate (p : Nat) : average (List.replicate nDur p) = p := by
  rw [average, List.sum_replicate, smul_eq_mul, Nat.mul_div_cancel_left p (by decide)]

/-- Equal durations have no variance (42_estimator R604). -/
theorem variance10_replicate (p : Nat) : variance10 (List.replicate nDur p) = 0 := by
  have hsum : deviationSum (List.replicate nDur p) = 0 := by
    rw [deviationSum, average_replicate, List.map_replicate]
    simp [squaredDeviation]
  rw [variance10, hsum]
  rfl

/-- A complete window of equal durations is measured as that duration, with no variance (42_estimator R605, R609). -/
theorem measureWindow_of_equal_durations (s : State) (p : Nat) (hclose : s.closeCause = .complete)
    (hp : p < 2 ^ s.cfg.cntW) (h : durations s.cfg.cntW (keptValues s) = List.replicate nDur p) :
    ∃ m, measureWindow s = .ok m ∧ m.estAvg.toNat = p ∧ m.estFreq.toNat = Nat.min (p * s.cfg.baud) (2 ^ 32 - 1) ∧
      m.estVar10 = 0 := by
  refine ⟨_, measureWindow_of_complete s hclose, ?_, ?_, ?_⟩
  · have hle := cntW_pow_le s.cfg
    rw [h, writeEstimate_estAvg, average_replicate, BitVec.toNat_ofNat, Nat.mod_eq_of_lt (by omega)]
  · rw [h, writeEstimate_estFreq, frequency, average_replicate, BitVec.toNat_ofNat, Nat.mod_eq_of_lt (sat_lt _ _),
      sat_eq_min]
  · rw [h, writeEstimate_estVar10, variance10_replicate]
    rfl

/-- The event of the cadence frame at the i-th bit time: falling at the even ones (30_encoding R340). -/
def cadenceEdge (p i : Nat) : Event := edgeInto (i % 2 == 1) (i * p)

/-- The cadence frame is an edge at each of ten bit times. -/
theorem hostByte_cadence (p : Nat) : hostByte 0x55 p = (List.range' 0 10).map (cadenceEdge p) := rfl

/-- A SURVEY window is open and has captured the first n edges of the cadence frame. -/
structure Measuring (c : Config) (p n : Nat) (s : State) : Prop where
  seq : s.seq = .wait
  armed : s.armed = true
  winOpen : s.winOpen = true
  expPol : s.expPol = polarityInto (n % 2 == 1)
  mode : s.mode = .survey
  edgeCnt : s.edgeCnt.toNat = n
  cfg : s.cfg = c
  elapsed : s.elapsed < n * p
  stamps : ∀ i, 1 ≤ i → i < n → (Memory.read i s.sample).toNat = stampOf c p i

/-- The opening edge is the first (41_capture R504). -/
theorem step_opening_measuring {s : State} {p : Nat} {later : List (List Event)} (hp : 1 ≤ p) (hseq : s.seq = .wait)
    (harmed : s.armed = true) (hclosed : s.winOpen = false) (hpol : s.expPol = .falling) (hmode : s.mode = .survey)
    (hinput : s.input = [cadenceEdge p 0] :: later) :
    ∃ t, step s = .next t ∧ Measuring s.cfg p 1 t ∧ t.input = later := by
  refine ⟨_, step_of_opening_edge s (0 * p) later hseq harmed hclosed hpol hinput, ?_, rfl⟩
  exact {
    seq := hseq, armed := harmed, winOpen := rfl, expPol := by rw [afterOpening, nextPolarity, hmode, hpol]; rfl
    mode := hmode, edgeCnt := rfl, cfg := rfl, elapsed := show 0 < 1 * p by omega
    stamps := fun i h1 hi => absurd h1 (by omega) }

/-- The next edge of the frame, captured: its stamp goes into the next slot (41_capture R505, R506). -/
theorem Measuring.captured {c : Config} {p n : Nat} {s : State} (h : Measuring c p n s) (hp : 1 ≤ p) (hn : n ≤ 9)
    (later : List (List Event)) : Measuring c p (n + 1) (captured (n * p) { s with input := later }) where
  seq := h.seq
  armed := h.armed
  winOpen := h.winOpen
  mode := h.mode
  cfg := h.cfg
  edgeCnt := (edgeCnt_succ s (by rw [h.edgeCnt]; exact hn)).trans (by rw [h.edgeCnt])
  elapsed := show n * p < (n + 1) * p by rw [Nat.succ_mul]; omega
  expPol := by
    rcases Nat.mod_two_eq_zero_or_one n with hmod | hmod <;>
      simp [Machine.captured, nextPolarity, h.mode, h.expPol, polarityInto, Polarity.flip, Nat.add_mod, hmod]
  stamps := fun i h1 hi => by
    show (Memory.read i (Memory.write s.edgeCnt.toNat _ s.sample)).toNat = _
    rw [Memory.read_write, h.edgeCnt]
    split
    · rw [capturedValue_toNat, ‹i = n›, ← h.cfg]
      rfl
    · exact h.stamps i h1 (by omega)

/-- An edge of the frame is taken: the tenth closes the window (41_capture R507). -/
theorem Measuring.step_edge {c : Config} {p n : Nat} {s : State} {later : List (List Event)} (h : Measuring c p n s)
    (hp : 1 ≤ p) (hn : n ≤ 9) (hwin : n * p < c.tWin) (hinput : s.input = [cadenceEdge p n] :: later) :
    ∃ u, step s = .next (if n < 9 then u else closeWindow .complete u) ∧ Measuring c p (n + 1) u ∧
      u.input = later := by
  refine ⟨_, ?_, h.captured hp hn later, rfl⟩
  have hlimit : limit s.cfg s.mode = some c.tWin := by rw [h.cfg, h.mode]; rfl
  rw [step_of_expected_edge s _ _ _ later h.seq h.armed h.winOpen h.expPol hlimit h.elapsed hwin hinput,
    captureEdge_eq]
  show orFault (if s.edgeCnt.toNat < 9 then _ else if s.edgeCnt.toNat = 9 then _ else _) = _
  rw [h.edgeCnt]
  split
  · rfl
  · rw [if_pos (show n = 9 by omega)]
    rfl

/-- The rest of the frame closes the window with all its edges captured. -/
theorem Measuring.run_rest (c : Config) (p : Nat) (hp : 1 ≤ p) (hwin : 9 * p < c.tWin) (m n : Nat) (hmn : n + m = 9)
    (s : State) (h : Measuring c p n s)
    (hinput : s.input = ((List.range' n (m + 1)).map (cadenceEdge p)).map (fun ev => [ev])) :
    ∃ u, RunsTo (m + 1) s (closeWindow .complete u) ∧ Measuring c p 10 u := by
  induction m generalizing n s with
  | zero =>
    obtain rfl : n = 9 := hmn
    obtain ⟨u, hstep, hu, -⟩ := h.step_edge hp le_rfl hwin hinput
    exact ⟨u, .head hstep (.refl _), hu⟩
  | succ m ih =>
    have hbefore : n * p < c.tWin := (Nat.mul_le_mul_right p (by omega)).trans_lt hwin
    obtain ⟨v, hstep, hv, hlater⟩ := h.step_edge hp (by omega) hbefore hinput
    rw [if_pos (show n < 9 by omega)] at hstep
    obtain ⟨u, hrun, hu⟩ := ih (n + 1) (by omega) v hv hlater
    exact ⟨u, hrun.head hstep, hu⟩

/-- The kept slots of the complete window hold the stamps of the nine later edges. -/
theorem Measuring.keptValues_eq {c : Config} {p : Nat} {u : State} (h : Measuring c p 10 u) :
    keptValues u = (List.range' 1 9).map (stampOf c p) :=
  List.map_congr_left fun i hi => by
    obtain ⟨h1, h10⟩ := List.mem_range'_1.mp (show i ∈ List.range' 1 9 from hi)
    exact h.stamps i h1 h10

/-- Settles O60: ten edges P apart close the window, and each of its durations is P. -/
theorem cadenceMeasuresItsBitTime : Obligations.CadenceMeasuresItsBitTime := by
  intro s p hseq harmed hclosed hpol hmode hp hwin hwidth hinput
  rw [hostByte_cadence, List.range'_succ, List.map_cons, List.map_cons] at hinput
  obtain ⟨v, hopening, hv, hlater⟩ := step_opening_measuring hp hseq harmed hclosed hpol hmode hinput
  obtain ⟨u, hrun, hu⟩ := hv.run_rest s.cfg p hp hwin 8 1 rfl v hlater
  have hcfg : (closeWindow .complete u).cfg = s.cfg := hu.cfg
  obtain ⟨m, hmeasured, havg, hfreq, hvar⟩ := measureWindow_of_equal_durations (closeWindow .complete u) p rfl
    (by rwa [hcfg]) (by rw [hcfg, ← durations_stampOf s.cfg p hwidth 1 nDur]; exact congrArg _ hu.keptValues_eq)
  rw [hcfg] at hfreq
  exact ⟨_, m, RunsTo.head hopening hrun, rfl, rfl, hu.edgeCnt, hmeasured, havg, hfreq, hvar⟩

end Sys2Proof.Machine

/-! The transmitter (40_transport): what TX_SEND and TX_DONE answer, the frame's time, and a whole response sent. -/

namespace Sys2Proof.Machine

/-- TX_SEND sends the byte at the head of TXQ. -/
theorem exec_txSend_of_cons (s : State) (b : Byte) (rest : List Byte) (hseq : s.seq = .tx) (hq : s.txq = b :: rest) :
    exec .txSend s = .next (sendByte b rest s) := by
  simp [exec, execTxSend, hseq, hq]

/-- TX_DONE ends the response once TXQ is empty. -/
theorem exec_txDone_of_nil (s : State) (hseq : s.seq = .tx) (hq : s.txq = []) :
    exec .txDone s = .next (endResponse s) :=
  (onlyIf_next _ _ _ _).mpr ⟨by simp [hseq, hq], rfl⟩

/-- A byte sent writes no register but TX_LINE. -/
theorem keepsRegs_sendByte (b : Byte) (rest : List Byte) (s : State) : KeepsRegs [.txLine] s (sendByte b rest s) := by
  rw [sendByte_eq]
  intro r hr
  cases r
  case txLine => simp at hr
  all_goals rfl

/-- A byte sent from a line that is high changes TXQ and the bytes sent only. -/
theorem sendByte_of_line_high (b : Byte) (rest : List Byte) (s : State) (hline : s.txLine = true) :
    sendByte b rest s = { s with txq := rest, sent := s.sent ++ [b] } := by
  rw [sendByte_eq, ← hline]

/-- Settles O46: TX_SEND writes TXQ, TX_LINE and the bytes sent. -/
theorem transmitterSendsTheOldestByte : Obligations.TransmitterSendsTheOldestByte := by
  intro s b rest hseq hq
  have hkeeps := keepsRegs_sendByte b rest s
  have hexec := exec_txSend_of_cons s b rest hseq hq
  rw [sendByte_eq] at hkeeps hexec
  exact ⟨_, hexec, rfl, rfl, rfl, hkeeps, fun _ _ => rfl, rfl, rfl⟩

/-- The end of a response writes MODE and the registers of ArmWindow, and queues nothing (40_transport R405, R406). -/
theorem emits_endResponse (s : State) :
    Emits [.mode, .edgeCnt, .winOpen, .expPol, .elapsed, .closeCause, .ready, .armed, .seq] [] s (endResponse s) := by
  rw [endResponse_eq]
  refine ⟨fun r hr => ?_, fun _ _ => rfl, ⟨rfl, rfl, rfl⟩, by simp⟩
  cases r
  case mode | edgeCnt | winOpen | expPol | elapsed | closeCause | ready | armed | seq => simp at hr
  all_goals rfl

/-- Settles O47: TX_DONE is ArmWindow after the write of MODE. -/
theorem endOfResponseRearms : Obligations.EndOfResponseRearms := by
  intro s hseq hq
  have hemits := emits_endResponse s
  have hexec := exec_txDone_of_nil s hseq hq
  rw [endResponse_eq] at hemits hexec
  exact ⟨_, hexec, rfl, rfl, rfl, rfl, rfl, rfl, rfl, rfl, rfl, hemits⟩

/-- Each of a frame's ten levels is held BIT_CYCLES (40_transport R402). -/
theorem frameWave_map_snd (c : Config) (b : Byte) : (frameWave c b).map Prod.snd = List.replicate 10 c.bitCycles := rfl

/-- Settles O48: the wave pairs each of the ten levels with BIT_CYCLES. -/
theorem frameLastsTenBitTimes : Obligations.FrameLastsTenBitTimes := by
  intro c b
  refine ⟨?_, rfl, rfl, fun l hl => ?_⟩
  · rw [frameCycles, frameWave_map_snd, List.sum_replicate_nat]
  · have hmem := List.mem_map_of_mem (f := Prod.snd) hl
    rw [frameWave_map_snd] at hmem
    exact List.eq_of_mem_replicate hmem

/-- With nothing to come, a step with a byte queued and the line high sends the byte. -/
theorem step_of_queued (s : State) (b : Byte) (rest : List Byte) (hseq : s.seq = .tx) (hinput : s.input = [])
    (hline : s.txLine = true) (hq : s.txq = b :: rest) :
    step s = .next { s with txq := rest, sent := s.sent ++ [b] } := by
  obtain ⟨-, -, -, hsend, -⟩ := stepRunsTheSelectedStep.2 s hinput
  rw [hsend hseq (by simp [hq]), exec_txSend_of_cons s b rest hseq hq, sendByte_of_line_high b rest s hline]

/-- With nothing to come, a step with TXQ empty ends the response. -/
theorem step_of_sent (s : State) (hseq : s.seq = .tx) (hinput : s.input = []) (hq : s.txq = []) :
    step s = .next (endResponse s) := by
  obtain ⟨-, -, -, -, hdone⟩ := stepRunsTheSelectedStep.2 s hinput
  rw [hdone hseq hq, exec_txDone_of_nil s hseq hq]

/-- As many steps as there are bytes queued send them, oldest first (40_transport R409). -/
theorem runsTo_drained (q : List Byte) (s : State) (hseq : s.seq = .tx) (hinput : s.input = [])
    (hline : s.txLine = true) (hq : s.txq = q) : RunsTo q.length s { s with txq := [], sent := s.sent ++ q } := by
  induction q generalizing s with
  | nil =>
    have hsame : { s with txq := [], sent := s.sent ++ [] } = s := by rw [List.append_nil, ← hq]
    rw [hsame]
    exact .refl s
  | cons b rest ih =>
    have hrest := ih { s with txq := rest, sent := s.sent ++ [b] } hseq hinput hline rfl
    rw [List.append_assoc] at hrest
    exact hrest.head (step_of_queued s b rest hseq hinput hline hq)

/-- Settles O49: the queue is drained, and one more step ends the response. -/
theorem responseIsSentInOrder : Obligations.ResponseIsSentInOrder :=
  fun s hseq hinput hline =>
    (runsTo_drained s.txq s hseq hinput hline rfl).tail (step_of_sent _ hseq hinput rfl)

end Sys2Proof.Machine

/-! The capture unit (41_capture): what its instructions answer on an edge that is ignored, taken or out of its time and
on the timer event, and the wait of a window that no edge has opened. -/

namespace Sys2Proof.Machine

/-- There are two polarities: the one that is not p is the flip of p. -/
theorem Polarity.eq_flip_iff_ne (p q : Polarity) : q = p.flip ↔ q ≠ p := by cases p <;> cases q <;> decide

/-- An edge is ignored where one of the conditions of R502 holds. -/
theorem edgeIgnored_eq_true (p : Polarity) (s : State) :
    edgeIgnored p s = true ↔ s.seq ≠ .wait ∨ s.armed = false ∨ s.expPol = p.flip := by
  simp [edgeIgnored, or_assoc, Polarity.eq_flip_iff_ne, ne_comm (a := p)]

/-- The instruction of a later edge is CAP_NEXT for the edge's polarity. -/
theorem exec_edgeInstr (p : Polarity) (e : Nat) (s : State) : exec (edgeInstr p e) s = nextEdge p e s := by
  cases p <;> rfl

/-- CAP_OPEN leaves the state on an ignored edge (41_capture R502). -/
theorem exec_capOpen_of_ignored (e : Nat) (s : State) (h : edgeIgnored .falling s = true) :
    exec (.capOpen e) s = .next s := if_pos h

/-- CAP_NEXT leaves the state on an ignored edge (41_capture R502). -/
theorem exec_edgeInstr_of_ignored (p : Polarity) (e : Nat) (s : State) (h : edgeIgnored p s = true) :
    exec (edgeInstr p e) s = .next s := by
  rw [exec_edgeInstr]
  exact if_pos h

/-- Settles O14: the three conditions are those under which an edge of either polarity is ignored. -/
theorem ignoredEdgeChangesNothing : Obligations.IgnoredEdgeChangesNothing := by
  refine fun s e => ⟨fun h => ?_, fun h => ?_⟩
  · have hignored := (edgeIgnored_eq_true .falling s).mpr h
    exact ⟨exec_capOpen_of_ignored e s hignored, exec_edgeInstr_of_ignored .falling e s hignored⟩
  · exact exec_edgeInstr_of_ignored .rising e s ((edgeIgnored_eq_true .rising s).mpr h)

/-- MemRead answers what was written to a slot that exists. -/
theorem memRead_of_written (s t : State) (i : Nat) (v : Count) (hi : i < nSamples)
    (ht : t.sample = Memory.write i v s.sample) : memRead i t = .ok v := by
  rw [memRead_of_lt i t hi, ht, Memory.read_write, if_pos rfl]

/-- A write of one slot keeps every other. -/
theorem keepsSlots_of_written (s t : State) (i : Nat) (v : Count) (ht : t.sample = Memory.write i v s.sample) :
    KeepsSlots [i] s t := by
  intro j hj
  by_contra hne
  exact hj (List.mem_singleton.mpr (eq_of_memRead_ne s t i j v ht hne))

/-- In SURVEY the expected polarity is inverted (41_capture R506). -/
theorem nextPolarity_of_survey (s : State) (h : s.mode = .survey) : nextPolarity s = s.expPol.flip := by
  simp [nextPolarity, h]

/-- Outside SURVEY the expected polarity stays (41_capture R506). -/
theorem nextPolarity_of_ne_survey (s : State) (h : s.mode ≠ .survey) : nextPolarity s = s.expPol := by
  simp [nextPolarity, h]

/-- The registers that the opening edge writes (41_capture R504). -/
theorem keepsRegs_afterOpening (s : State) :
    KeepsRegs [.cnt, .elapsed, .edgeCnt, .winOpen, .expPol] s (afterOpening s) := by
  intro r hr
  cases r
  case cnt | elapsed | edgeCnt | winOpen | expPol => simp at hr
  all_goals rfl

/-- Settles O15: CAP_OPEN answers the opened window. -/
theorem openingEdgeOpensTheWindow : Obligations.OpeningEdgeOpensTheWindow := by
  intro s e hseq harmed hclosed hpol
  have hexpPol : (afterOpening s).expPol = if s.mode = .survey then .rising else .falling := by
    show nextPolarity s = _
    split
    · rw [nextPolarity_of_survey s ‹_›, hpol]
      rfl
    · rw [nextPolarity_of_ne_survey s ‹_›, hpol]
  exact ⟨afterOpening s, execCapOpen_of_armed e s hseq harmed hclosed hpol, rfl, rfl,
    memRead_of_written s _ 0 0 (by decide) rfl, rfl, rfl, hexpPol, keepsRegs_afterOpening s,
    keepsSlots_of_written s _ 0 0 rfl, ⟨rfl, rfl, rfl⟩, rfl⟩

/-- The registers that a later edge writes before the tenth (41_capture R505). -/
theorem keepsRegs_captured (e : Nat) (s : State) :
    KeepsRegs [.elapsed, .cnt, .edgeCnt, .expPol] s (captured e s) := by
  intro r hr
  cases r
  case elapsed | cnt | edgeCnt | expPol => simp at hr
  all_goals rfl

/-- The registers that CloseWindow writes (41_capture R510). -/
theorem keepsRegs_closeWindow (c : Close) (s : State) :
    KeepsRegs [.armed, .closeCause, .ready, .seq] s (closeWindow c s) := by
  intro r hr
  cases r
  case armed | closeCause | ready | seq => simp at hr
  all_goals rfl

/-- Two steps keep what neither writes. -/
theorem KeepsRegs.trans {l m : List Reg} {s t u : State} (h : KeepsRegs l s t) (h' : KeepsRegs m t u) :
    KeepsRegs (l ++ m) s u := by
  intro r hr
  rw [List.mem_append, not_or] at hr
  exact (h' r hr.2).trans (h r hr.1)

/-- What a later edge does beside the slot it writes, whether or not it is the tenth (41_capture R505, R506). -/
theorem captureEdge_common (e : Nat) (s t : State) (h : captureEdge e s = .ok t) :
    t.elapsed = e ∧ t.cnt = truncCount s.cfg e ∧ t.edgeCnt = s.edgeCnt + 1 ∧ t.expPol = nextPolarity s ∧
      KeepsOutside s t ∧ t.txq = s.txq := by
  obtain ⟨rfl, -⟩ | ⟨rfl, -⟩ := captureEdge_ok e s t h <;> exact ⟨rfl, rfl, rfl, rfl, ⟨rfl, rfl, rfl⟩, rfl⟩

/-- Settles O16: the accepted edge is captured, and the tenth closes the window. -/
theorem nextEdgeIsCaptured : Obligations.NextEdgeIsCaptured := by
  intro s p e l hseq harmed hopen hpol hlimit hafter hbefore h9
  obtain ⟨t, ht⟩ := captureEdge_answers e s h9
  have hexec : exec (edgeInstr p e) s = .next t := by
    rw [exec_edgeInstr, nextEdge_of_expected p e l s hseq harmed hopen hpol hlimit hafter hbefore, ht]
    rfl
  have hslot := captureEdge_sample e s t ht
  obtain ⟨helapsed, hcnt, hcount, hnext, houtside, htxq⟩ := captureEdge_common e s t ht
  refine ⟨t, capturedValue e s, hexec, helapsed, ?_, memRead_of_written s t _ _ (Nat.lt_succ_of_le h9) hslot, ?_, ?_,
    fun hsurvey => ?_, fun hsurvey => ?_, keepsSlots_of_written s t _ _ hslot, houtside, htxq, fun hlt => ?_,
    fun htenth => ?_⟩
  · rw [hcnt, truncCount_toNat, trunc_natCast]
  · rw [capturedValue_toNat, trunc_eq]
  · rw [hcount, edgeCnt_succ s h9]
  · rw [hnext, nextPolarity_of_survey s hsurvey, ← Polarity.eq_flip_iff_ne]
  · rw [hnext, nextPolarity_of_ne_survey s hsurvey]
  · obtain ⟨rfl, -⟩ | ⟨-, h⟩ := captureEdge_ok e s t ht
    · exact keepsRegs_captured e s
    · omega
  · obtain ⟨-, h⟩ | ⟨rfl, -⟩ := captureEdge_ok e s t ht
    · omega
    · exact ⟨rfl, rfl, rfl, rfl, (keepsRegs_captured e s).trans (keepsRegs_closeWindow .complete _)⟩

/-- CAP_NEXT on an accepted edge looks at the edge's time (41_capture R503). -/
theorem exec_edgeInstr_of_accepted (p : Polarity) (e lim : Nat) (s : State) (hseq : s.seq = .wait)
    (harmed : s.armed = true) (hopen : s.winOpen = true) (hpol : s.expPol = p)
    (hlimit : limit s.cfg s.mode = some lim) :
    exec (edgeInstr p e) s =
      if e ≤ s.elapsed then .refused .edgeNotAfterLast
      else if lim ≤ e then .refused .edgePastLimit
      else orFault (captureEdge e s) := by
  have haccepted : edgeIgnored p s = false := (edgeIgnored_eq_false p s).mpr ⟨hseq, harmed, hpol⟩
  simp [exec_edgeInstr, nextEdge, haccepted, hopen, hlimit]

/-- Settles O17: an edge of the expected polarity is accepted, and its time is refused. -/
theorem edgeOutOfTimeHasNoStep : Obligations.EdgeOutOfTimeHasNoStep := by
  intro s e l hseq harmed hopen hlimit hrunning
  have hexec (p : Polarity) (hpol : s.expPol = p) := exec_edgeInstr_of_accepted p e l s hseq harmed hopen hpol hlimit
  refine ⟨fun hearly => ?_, fun hlate => ?_⟩
  · simp only [if_pos hearly] at hexec
    exact ⟨hexec .falling, hexec .rising⟩
  · simp only [if_neg (show ¬e ≤ s.elapsed by omega), if_pos hlate] at hexec
    exact ⟨hexec .falling, hexec .rising⟩

/-- The window timer runs in an open window that the block waits in (41_capture R508). -/
theorem timerRuns_eq_true (s : State) :
    timerRuns s = true ↔ s.seq = .wait ∧ s.armed = true ∧ s.winOpen = true := by
  simp [timerRuns, and_assoc]

/-- The timer event has no step where no timer runs (41_capture R509). -/
theorem exec_capExpire_of_not_running (s : State) (h : ¬timerRuns s = true) :
    exec .capExpire s = .refused .expireWithoutWindow := if_neg h

/-- Settles O18: the event closes the window exactly where the timer runs. -/
theorem expiryClosesTheOpenWindow : Obligations.ExpiryClosesTheOpenWindow := by
  refine fun s => ⟨fun hseq harmed hopen => ?_, fun h => ?_⟩
  · have hruns := (timerRuns_eq_true s).mpr ⟨hseq, harmed, hopen⟩
    exact ⟨closeWindow .expired s, if_pos hruns, rfl, rfl, rfl, rfl, keepsRegs_closeWindow .expired s, fun _ _ => rfl,
      ⟨rfl, rfl, rfl⟩, (List.append_nil _).symm⟩
  · refine exec_capExpire_of_not_running s fun hruns => ?_
    obtain ⟨hseq, harmed, hopen⟩ := (timerRuns_eq_true s).mp hruns
    simp [hseq, harmed, hopen] at h

/-- A rising edge that is not expected leaves all but itself (41_capture R502). -/
theorem step_of_unexpected_rising (s : State) (e : Nat) (later : List (List Event)) (hpol : s.expPol = .falling)
    (hinput : s.input = [⟨1, e⟩] :: later) : step s = .next { s with input := later } := by
  rw [stepRunsThePresentedEvent s ⟨1, e⟩ later (.capNextR e) hinput rfl]
  exact nextEdge_of_unexpected .rising e _ (by rw [hpol]; nofun)

/-- In WAIT an empty instant passes, and nothing else changes (41_capture R511). -/
theorem step_of_empty_instant_waiting (s : State) (later : List (List Event)) (hseq : s.seq = .wait)
    (hinput : s.input = [] :: later) : step s = .next { s with input := later } := by
  refine step_of_idle s _ ((fetch_of_empty_instant s later hinput).trans ?_)
  rw [fetchInternal_eq, hseq]

/-- An instant at which nothing or a rising edge is presented. -/
def quietInstant (o : Option Nat) : List Event := o.elim [] fun e => [⟨1, e⟩]

/-- A quiet instant passes while a falling edge is awaited, and nothing else changes. -/
theorem step_of_quiet_instant (s : State) (o : Option Nat) (later : List (List Event)) (hseq : s.seq = .wait)
    (hpol : s.expPol = .falling) (hinput : s.input = quietInstant o :: later) :
    step s = .next { s with input := later } := by
  cases o with
  | none => exact step_of_empty_instant_waiting s later hseq hinput
  | some e => exact step_of_unexpected_rising s e later hpol hinput

/-- Any number of quiet instants pass while a falling edge is awaited, and nothing else changes. -/
theorem runsTo_of_quiet_instants (os : List (Option Nat)) (s : State) (hseq : s.seq = .wait)
    (hpol : s.expPol = .falling) (hinput : s.input = os.map quietInstant) :
    RunsTo os.length s { s with input := [] } := by
  induction os generalizing s with
  | nil =>
    have hsame : { s with input := [] } = s := by rw [show [] = s.input from hinput.symm]
    rw [hsame]
    exact .refl s
  | cons o os ih =>
    have hstep := step_of_quiet_instant s o (os.map quietInstant) hseq hpol hinput
    exact (ih { s with input := os.map quietInstant } hseq hpol rfl).head hstep

/-- Settles O12: quiet instants pass, and the timer does not run before the window opens. -/
theorem unopenedWindowWaitsForEver : Obligations.UnopenedWindowWaitsForEver :=
  fun s es hseq _ hclosed hpol hinput =>
    ⟨runsTo_of_quiet_instants es s hseq hpol hinput, (expiryClosesTheOpenWindow s).2 (.inr (.inr hclosed))⟩

end Sys2Proof.Machine

/-! The estimator (42_estimator R601 to R609): what durations make of biased and wrapped counts, how the frequency stands
to the exact mean, and what ESTIMATE writes. -/

namespace Sys2Proof.Machine

/-- A map of the samples that keeps every narrowed difference keeps the durations. -/
theorem durations_map (w : Nat) (f : Nat → Nat)
    (hf : ∀ a b : Nat, trunc w ((f b : Int) - (f a : Int)) = trunc w ((b : Int) - (a : Int))) (xs : List Nat) :
    durations w (xs.map f) = durations w xs := by
  induction xs with
  | nil => rfl
  | cons a xs ih =>
    cases xs with
    | nil => rfl
    | cons b rest =>
      rw [List.map_cons, List.map_cons, durations, durations, hf, ← List.map_cons, ih]

/-- Settles O30: both slots of a duration subtract the same bias, so their narrowed difference is that of the counts. -/
theorem durationsIgnoreTheLatencyBias : Obligations.DurationsIgnoreTheLatencyBias := fun c counts =>
  durations_map c.cntW _ (fun a b => by rw [trunc_sub_trunc, sub_sub_sub_cancel_right]) counts

/-- The durations of counter values are those of the times (41_capture R505). -/
theorem durations_counted (c : Config) (times : List Nat) :
    durations c.cntW (counted c times) = durations c.cntW times :=
  durations_map c.cntW _ (fun a b => trunc_sub_trunc c.cntW b a) times

/-- The durations of times in order are the gaps, narrowed. -/
theorem durations_of_isChain (w : Nat) (times : List Nat) (h : times.IsChain (fun a b => a ≤ b)) :
    durations w times = (gaps times).map (fun d => d % 2 ^ w) := by
  induction h with
  | nil => rfl
  | singleton a => rfl
  | cons_cons hle _ ih => rw [durations, gaps, List.map_cons, ih, ← Nat.cast_sub hle, trunc_natCast]

/-- Settles O31: the stamps have the durations of the times, the narrowed gaps, and narrowing leaves a gap of CNT_W bits. -/
theorem durationsAreExactUpToTheWrap : Obligations.DurationsAreExactUpToTheWrap := by
  intro c times hchain
  have hmod : durations c.cntW (biased c (counted c times)) = (gaps times).map (fun d => d % 2 ^ c.cntW) := by
    rw [durationsIgnoreTheLatencyBias, durations_counted, durations_of_isChain c.cntW times hchain]
  refine ⟨hmod, fun hfits => ?_⟩
  calc durations c.cntW (biased c (counted c times)) = (gaps times).map (fun d => d % 2 ^ c.cntW) := hmod
    _ = (gaps times).map id := List.map_congr_left fun d hd => Nat.mod_eq_of_lt (hfits d hd)
    _ = gaps times := List.map_id _

/-- Settles O32: FREQ is AVG times BAUD, and AVG the floor of an eighth of the sum. -/
theorem frequencyResolution : Obligations.FrequencyResolution := by
  intro c ds hfits
  have hfreq : frequency c ds = average ds * c.baud := if_pos (by omega)
  have havg : average ds = ds.sum / 8 := rfl
  obtain ⟨-, -, ⟨hbaud, -⟩, -⟩ := c.valid
  rw [hfreq]
  refine ⟨Nat.dvd_mul_left _ _, ?_, ?_⟩
  · calc 8 * (average ds * c.baud) = 8 * average ds * c.baud := (mul_assoc ..).symm
      _ ≤ ds.sum * c.baud := Nat.mul_le_mul_right _ (by omega)
  · calc ds.sum * c.baud < 8 * (average ds + 1) * c.baud := Nat.mul_lt_mul_of_pos_right (by omega) hbaud
      _ = 8 * (average ds * c.baud + c.baud) := by ring

/-- The registers that ESTIMATE writes (42_estimator R609): it queues nothing. -/
theorem emits_writeEstimate (ds : List Nat) (s : State) :
    Emits [.estAvg, .estFreq, .estVar10] [] s (writeEstimate ds s) := by
  refine ⟨fun r hr => ?_, fun _ _ => rfl, ⟨rfl, rfl, rfl⟩, (List.append_nil _).symm⟩
  cases r
  case estAvg | estFreq | estVar10 => simp at hr
  all_goals rfl

/-- A u32 register holds a number saturated at 32 bits exactly (42_estimator R603, R604). -/
theorem ofNat_sat_toNat (v : Nat) : (BitVec.ofNat 32 (sat 32 v)).toNat = Nat.min v (2 ^ 32 - 1) := by
  rw [BitVec.toNat_ofNat, Nat.mod_eq_of_lt (sat_lt 32 v), sat_eq_min]

/-- A squared deviation is the square of the signed difference (42_estimator R604). -/
theorem squaredDeviation_eq (a d : Nat) : squaredDeviation a d = (((d : Int) - (a : Int)) ^ 2).toNat := by
  rw [squaredDeviation, ← Int.natAbs_sq, ← Nat.cast_pow, Int.toNat_natCast]

/-- The i-th duration of the samples x (42_estimator R601). -/
def durationAt (w : Nat) (x : Nat → Nat) (i : Nat) : Nat := trunc w ((x (i + 2) : Int) - (x (i + 1) : Int))

/-- The nine kept samples have eight durations (42_estimator R601). -/
theorem durations_keptSlots (w : Nat) (x : Nat → Nat) :
    durations w (keptSlots.map x) = (List.range 8).map (durationAt w x) := rfl

/-- Settles O29: ESTIMATE writes the three results of the durations of the nine samples it reads. -/
theorem estimateOfTheWindow : Obligations.EstimateOfTheWindow := by
  intro s x hx
  have hread : readSlots s keptSlots = .ok (keptSlots.map x) := readSlots_ok s x keptSlots fun i hi => by
    obtain ⟨h1, h9⟩ := (show ∀ j ∈ keptSlots, 1 ≤ j ∧ j ≤ 9 by decide) i hi
    exact hx i h1 h9
  have havg := average_durations_lt s.cfg.cntW (keptSlots.map x) rfl
  have hwidth := cntW_pow_le s.cfg
  refine ⟨durationAt s.cfg.cntW x, fun i _ => trunc_eq _ _, _, rfl,
    writeEstimate (durations s.cfg.cntW (keptSlots.map x)) s, ?_, ?_, ?_, ?_, emits_writeEstimate _ s⟩
  · rw [estimate, hread]
  · rw [writeEstimate_estAvg, BitVec.toNat_ofNat, Nat.mod_eq_of_lt (by omega)]
    rfl
  · rw [writeEstimate_estFreq, frequency, ofNat_sat_toNat]
    rfl
  · rw [writeEstimate_estVar10, variance10, ofNat_sat_toNat, deviationSum, durations_keptSlots, List.map_map]
    simp only [Function.comp_def, squaredDeviation_eq]
    rfl

end Sys2Proof.Machine

/-! The results change only in their steps (42_estimator R605, 10_state R110, R111, R130): what each effect of a step makes
of the Estimate, the calibration and the parameters. -/

namespace Sys2Proof.Machine

/-- The Estimate registers (10_state R130). -/
def State.estimateRegs (s : State) : Count × BitVec 32 × BitVec 32 := (s.estAvg, s.estFreq, s.estVar10)

/-- The calibration registers (10_state R110). -/
def State.calibrationRegs (s : State) : BitVec 8 × BitVec 8 := (s.coarse, s.fine)

/-- A closed survey window is estimated: PROC_SURVEY is the step, and the window is complete (42_estimator R605). -/
def MeasuresWindow (s : State) : Prop := s.seq = .proc ∧ s.mode = .survey ∧ s.closeCause = .complete

/-- What a step may make of the results: the Estimate is written where a window is estimated, the calibration in PROC, both
where `presented` holds, and the parameters nowhere. -/
structure ResultsFollow (presented : Prop) (s t : State) : Prop where
  estimate : t.estimateRegs = s.estimateRegs ∨ MeasuresWindow s ∨ presented
  calibration : t.calibrationRegs = s.calibrationRegs ∨ s.seq = .proc ∨ presented
  cfg : t.cfg = s.cfg

/-- A step that writes no result. -/
theorem ResultsFollow.of_kept {p : Prop} {s t : State} (hest : t.estimateRegs = s.estimateRegs)
    (hcal : t.calibrationRegs = s.calibrationRegs) (hcfg : t.cfg = s.cfg) : ResultsFollow p s t :=
  ⟨.inl hest, .inl hcal, hcfg⟩

/-- A later edge writes no result, whether or not it is the tenth. -/
theorem resultsFollow_captureEdge (p : Prop) (e : Nat) (s t : State) (h : captureEdge e s = .ok t) :
    ResultsFollow p s t := by
  obtain ⟨rfl, -⟩ | ⟨rfl, -⟩ := captureEdge_ok e s t h <;> exact .of_kept rfl rfl rfl

/-- Of the results a configure command writes at most the calibration, in PROC. -/
theorem resultsFollow_applyCommand (p : Prop) (i : Instr) (s w : State) (hseq : s.seq = .proc)
    (h : applyCommand i { s with ready := false } = some w) : ResultsFollow p s { w with seq := .tx } := by
  rw [applyCommand_keeps i _ w h]
  exact ⟨.inl rfl, .inr (.inl hseq), rfl⟩

/-- The Estimate of a survey window is written where it is complete: no outcome writes it. -/
theorem resultsFollow_applyOutcome (p : Prop) (o : SurveyOutcome) (s m : State) (hseq : s.seq = .proc)
    (hmode : s.mode = .survey) (h : measureWindow s = .ok m) :
    ResultsFollow p s { applyOutcome o m with seq := .tx } := by
  rw [applyOutcome_keeps o m _ rfl]
  cases hclose : s.closeCause with
  | complete =>
    rw [measureWindow_of_complete s hclose] at h
    cases h
    exact ⟨.inr (.inl ⟨hseq, hmode, hclose⟩), .inr (.inl hseq), rfl⟩
  | expired =>
    rw [measureWindow_of_expired s hclose] at h
    cases h
    exact ⟨.inl rfl, .inr (.inl hseq), rfl⟩

/-- Every effect of a step writes the results only in their places. -/
theorem did_resultsFollow (p : Prop) (s t : State) (hd : Did p s t) : ResultsFollow p s t := by
  cases hd with
  | nothing => exact .of_kept rfl rfl rfl
  | opened _ _ ho =>
    rw [openWindow_eq] at ho
    cases ho
    exact .of_kept rfl rfl rfl
  | captured e l _ _ _ _ hc => exact resultsFollow_captureEdge p e s t hc
  | expired _ => exact .of_kept rfl rfl rfl
  | wasReset hp => exact ⟨.inr (.inr hp), .inr (.inr hp), rfl⟩
  | configured i w ready _ ha => exact resultsFollow_applyCommand p i s w ready.1 ha
  | surveyed m ready hm => exact resultsFollow_applyOutcome p _ s m ready.1 ready.2 hm
  | sent b rest _ =>
    rw [sendByte_eq]
    exact .of_kept rfl rfl rfl
  | ended _ =>
    rw [endResponse_eq]
    exact .of_kept rfl rfl rfl

/-- Settles O57: of a step's effects the survey writes the Estimate, it and the commands the calibration, and RESET both. -/
theorem resultsChangeOnlyInTheirSteps : Obligations.ResultsChangeOnlyInTheirSteps := by
  intro s t hstep
  obtain ⟨inp, hd⟩ := step_effect s t hstep
  obtain ⟨hestimate, hcalibration, hcfg⟩ := did_resultsFollow _ _ t hd
  exact ⟨or_iff_not_imp_left.mp hestimate, or_iff_not_imp_left.mp hcalibration, hcfg⟩

end Sys2Proof.Machine

/-! The configure commands (43_configure): what each one's body writes, the PROC_CONFIGURE step that runs it, and the target
that a list of bit commands leaves. -/

namespace Sys2Proof.Machine

/-- The row of a configure command has the effect of its body in the PROC step of CONFIGURE, and no step elsewhere. -/
theorem exec_of_applyCommand (i : Instr) (s t : State) (h : applyCommand i s = some t) :
    exec i s = onlyIf (procConfigures s) .notConfiguring t := by
  cases i
  case cfgShift1 | cfgShift0 | cfgSurvey | cfgReset | cfgNop | cfgInvalid =>
    cases h
    rfl
  all_goals cases h

/-- A configure command in the PROC step of CONFIGURE answers the effect of its body. -/
theorem exec_command (i : Instr) (s t : State) (hseq : s.seq = .proc) (hmode : s.mode = .configure)
    (h : applyCommand i s = some t) : exec i s = .next t := by
  have henabled : procConfigures s = true := by simp [procConfigures, hseq, hmode]
  rw [exec_of_applyCommand i s t h]
  exact (onlyIf_next _ _ _ _).mpr ⟨henabled, rfl⟩

/-- The commands of the counts (30_encoding R311): the count decodes to its command, and the command has an effect. -/
theorem decodeCount_command (c : BitVec 4) (i : Instr)
    (h : c = 1 ∧ i = .cfgShift1 ∨ c = 2 ∧ i = .cfgShift0 ∨ c = 3 ∧ i = .cfgSurvey ∨ c = 4 ∧ i = .cfgReset ∨
      c = 5 ∧ i = .cfgNop ∨ 6 ≤ c.toNat ∧ c.toNat ≤ 10 ∧ i = .cfgInvalid c) :
    decodeCount c.toNat = .ok i ∧ ∀ s, ∃ t, applyCommand i s = some t := by
  obtain ⟨rfl, rfl⟩ | ⟨rfl, rfl⟩ | ⟨rfl, rfl⟩ | ⟨rfl, rfl⟩ | ⟨rfl, rfl⟩ | ⟨h6, h10, rfl⟩ := h
  case inr.inr.inr.inr.inr => exact ⟨decodeCount_cfgInvalid c ⟨h6, h10⟩, fun _ => ⟨_, rfl⟩⟩
  all_goals exact ⟨rfl, fun _ => ⟨_, rfl⟩⟩

/-- Settles O24: the count decodes to the command, whose body the step runs with READY consumed. -/
theorem procConfigureRunsTheCommand : Obligations.ProcConfigureRunsTheCommand := by
  intro s i hseq hmode hcount
  obtain ⟨hdecode, happly⟩ := decodeCount_command s.edgeCnt i hcount
  obtain ⟨t, ht⟩ := happly { s with ready := false }
  exact ⟨t, exec_command i _ t hseq hmode ht, execProcConfigure_of_command s t i hseq hmode hdecode ht⟩

/-- No configure command reads or writes CLOSE. -/
theorem applyCommand_closeCause (i : Instr) (s : State) (c : Close) :
    applyCommand i { s with closeCause := c } = (applyCommand i s).map fun t => { t with closeCause := c } := by
  cases i <;> rfl

/-- Settles O26: neither the decoded command nor its body depends on CLOSE. -/
theorem configureDoesNotReadClose : Obligations.ConfigureDoesNotReadClose := by
  intro s c _
  have hproc : procConfigures { s with closeCause := c } = procConfigures s := rfl
  have hctx : tableCtx { s with closeCause := c } = tableCtx s := rfl
  have happly := fun i => applyCommand_closeCause i { s with ready := false } c
  simp only [exec, execProcConfigure, hproc, hctx, happly]
  split
  · cases decode (tableCtx s) ⟨.cmdCount, s.edgeCnt.setWidth 8, 0⟩ with
    | error r => rfl
    | ok i => cases h : applyCommand i { s with ready := false } <;> simp only [h] <;> rfl
  · rfl

/-- TARGET after a step's effect: the commands write it, RESET does, and nothing else (43_configure R708). -/
theorem did_target (p : Prop) (s t : State) (hd : Did p s t) :
    t.target = s.target ∨ (s.seq = .proc ∧ s.mode = .configure) ∨ p := by
  cases hd with
  | nothing => exact .inl rfl
  | opened _ _ ho =>
    rw [openWindow_eq] at ho
    cases ho
    exact .inl rfl
  | captured e l _ _ _ _ hc => obtain ⟨rfl, -⟩ | ⟨rfl, -⟩ := captureEdge_ok e s t hc <;> exact .inl rfl
  | expired _ => exact .inl rfl
  | wasReset hp => exact .inr (.inr hp)
  | configured _ _ ready _ _ => exact .inr (.inl ready)
  | surveyed m _ hm =>
    obtain ⟨a, f, v, rfl⟩ := measureWindow_fields s m hm
    rw [applyOutcome_keeps _ _ _ rfl]
    exact .inl rfl
  | sent b rest _ =>
    rw [sendByte_eq]
    exact .inl rfl
  | ended _ =>
    rw [endResponse_eq]
    exact .inl rfl

/-- Settles O28: of a step's effects only the commands and RESET write TARGET. -/
theorem targetChangesOnlyInConfigure : Obligations.TargetChangesOnlyInConfigure := by
  intro s t hstep hchanged
  obtain ⟨inp, hd⟩ := step_effect s t hstep
  exact (did_target _ _ t hd).resolve_left hchanged

/-- What a u32 register holds of a natural number truncated to 32 bits. -/
theorem ofNat_trunc_toNat (n : Nat) : (BitVec.ofNat 32 (trunc 32 (n : Int))).toNat = n % 2 ^ 32 := by
  rw [BitVec.toNat_ofNat, trunc_natCast, Nat.mod_mod]

/-- TARGET after CFG_SHIFT1 (43_configure R701). -/
theorem shiftInOne_target (s : State) : (shiftInOne s).target.toNat = (2 * s.target.toNat + 1) % 2 ^ 32 :=
  ofNat_trunc_toNat (2 * s.target.toNat + 1)

/-- TARGET after CFG_SHIFT0 (43_configure R702). -/
theorem shiftInZero_target (s : State) : (shiftInZero s).target.toNat = 2 * s.target.toNat % 2 ^ 32 :=
  ofNat_trunc_toNat (2 * s.target.toNat)

/-- One bit command shifts its bit into TARGET, and the next one can be run (43_configure R701, R702). -/
theorem exec_shift (b : Bool) (s : State) (hseq : s.seq = .proc) (hmode : s.mode = .configure) :
    ∃ t, exec (if b then .cfgShift1 else .cfgShift0) s = .next t ∧ t.seq = .proc ∧ t.mode = .configure ∧
      t.target.toNat = (2 * s.target.toNat + b.toNat) % 2 ^ 32 := by
  cases b
  · exact ⟨shiftInZero s, exec_command .cfgShift0 s _ hseq hmode rfl, hseq, hmode, shiftInZero_target s⟩
  · exact ⟨shiftInOne s, exec_command .cfgShift1 s _ hseq hmode rfl, hseq, hmode, shiftInOne_target s⟩

/-- The number that bits spell has them as its binary digits, the last bit the least significant. -/
theorem bitsValue_eq_ofDigits (bs : List Bool) : bitsValue bs = Nat.ofDigits 2 (bs.reverse.map Bool.toNat) := by
  rw [Nat.ofDigits_eq_foldr, List.foldr_map, List.foldr_reverse, bitsValue]
  congr 1
  funext n b
  cases b <;> simp [Nat.add_comm]

/-- The first bit is the most significant one. -/
theorem bitsValue_cons (b : Bool) (bs : List Bool) : bitsValue (b :: bs) = b.toNat * 2 ^ bs.length + bitsValue bs := by
  rw [bitsValue_eq_ofDigits, bitsValue_eq_ofDigits]
  simp [Nat.ofDigits_append, Nat.add_comm, Nat.mul_comm]

/-- As many bits as there are spell a number below that power of two. -/
theorem bitsValue_lt (bs : List Bool) : bitsValue bs < 2 ^ bs.length := by
  induction bs with
  | nil => decide
  | cons b bs ih =>
    have hb := Nat.mul_le_mul_right (2 ^ bs.length) (Bool.toNat_le b)
    rw [bitsValue_cons, List.length_cons, pow_succ]
    omega

/-- Bit commands shift TARGET left by their number and leave the number they spell below it. -/
theorem shiftBits_target (bs : List Bool) (s : State) (hseq : s.seq = .proc) (hmode : s.mode = .configure) :
    ∃ t, shiftBits bs s = .next t ∧
      t.target.toNat = (s.target.toNat * 2 ^ bs.length + bitsValue bs) % 2 ^ 32 := by
  induction bs generalizing s with
  | nil => exact ⟨s, rfl, by simpa [bitsValue] using (Nat.mod_eq_of_lt s.target.isLt).symm⟩
  | cons b bs ih =>
    obtain ⟨u, hexec, huseq, humode, hu⟩ := exec_shift b s hseq hmode
    obtain ⟨t, hshift, ht⟩ := ih u huseq humode
    refine ⟨t, by simp only [shiftBits, hexec, hshift], ?_⟩
    calc t.target.toNat
        = ((2 * s.target.toNat + b.toNat) % 2 ^ 32 * 2 ^ bs.length + bitsValue bs) % 2 ^ 32 := by rw [ht, hu]
      _ = ((2 * s.target.toNat + b.toNat) * 2 ^ bs.length + bitsValue bs) % 2 ^ 32 :=
        ((Nat.mod_modEq _ _).mul_right _).add_right _
      _ = (s.target.toNat * 2 ^ (b :: bs).length + bitsValue (b :: bs)) % 2 ^ 32 := by
        rw [bitsValue_cons, List.length_cons]
        ring_nf

/-- Settles O27: 32 bits shift out all that TARGET was before. -/
theorem thirtyTwoCommandsSpellTheTarget : Obligations.ThirtyTwoCommandsSpellTheTarget := by
  intro s bs hseq hmode hlen
  obtain ⟨t, hshift, ht⟩ := shiftBits_target bs s hseq hmode
  have hlt := bitsValue_lt bs
  rw [hlen] at ht hlt
  exact ⟨t, hshift, by rw [ht, Nat.mul_add_mod', Nat.mod_eq_of_lt hlt]⟩

/-- Two steps write what either writes, and queue one after the other. -/
theorem Emits.trans {l m : List Reg} {a b : List Byte} {s t u : State} (h : Emits l a s t) (h' : Emits m b t u) :
    Emits (l ++ m) (a ++ b) s u := by
  obtain ⟨hregs, hslots, ⟨hcfg, hinput, hsent⟩, hq⟩ := h
  obtain ⟨hregs', hslots', ⟨hcfg', hinput', hsent'⟩, hq'⟩ := h'
  exact ⟨hregs.trans hregs', fun i hi => (hslots' i hi).trans (hslots i hi),
    ⟨hcfg'.trans hcfg, hinput'.trans hinput, hsent'.trans hsent⟩, by rw [hq', hq, List.append_assoc]⟩

/-- A register written changes no other register, and queues nothing (00_scope R32). -/
theorem emits_setReg (s : State) (r : Reg) (v : Int) : Emits [r] [] s (setReg s r v) := by
  refine ⟨fun q hq => readReg_setReg_of_ne s r q v (by simpa using hq), fun i _ => ?_, ?_, by simp⟩
  · rw [memRead, memRead, setReg_sample]
  · cases r <;> exact ⟨rfl, rfl, rfl⟩

/-- TARGET written. -/
theorem emits_setTarget (s : State) (v : BitVec 32) : Emits [.target] [] s { s with target := v } := by
  simpa [setReg] using emits_setReg s .target v.toNat

/-- The registers that InitSearch writes (10_state R145). -/
theorem emits_initSearch (s : State) :
    Emits [.phase, .dir, .havePrev, .lastAction, .priorFreq, .priorErr, .priorVar] [] s (initSearch s) := by
  refine ⟨fun r hr => ?_, fun _ _ => rfl, ⟨rfl, rfl, rfl⟩, (List.append_nil _).symm⟩
  cases r
  case phase | dir | havePrev | lastAction | priorFreq | priorErr | priorVar => simp at hr
  all_goals rfl

/-- The registers that InitCal writes (10_state R146). -/
theorem emits_initCal (s : State) : Emits [.coarse, .fine] [] s (initCal s) := by
  refine ⟨fun r hr => ?_, fun _ _ => rfl, ⟨rfl, rfl, rfl⟩, (List.append_nil _).symm⟩
  cases r
  case coarse | fine => simp at hr
  all_goals rfl

/-- Settles O19: the body of CFG_SHIFT1 writes TARGET and acknowledges. -/
theorem shiftOneIntoTarget : Obligations.ShiftOneIntoTarget := fun s hseq hmode =>
  ⟨shiftInOne s, exec_command .cfgShift1 s _ hseq hmode rfl, shiftInOne_target s,
    (emits_setTarget s _).trans (emits_emitReply .ack1 _)⟩

/-- Settles O20: the body of CFG_SHIFT0 writes TARGET and acknowledges. -/
theorem shiftZeroIntoTarget : Obligations.ShiftZeroIntoTarget := fun s hseq hmode =>
  ⟨shiftInZero s, exec_command .cfgShift0 s _ hseq hmode rfl, shiftInZero_target s,
    (emits_setTarget s _).trans (emits_emitReply .ack2 _)⟩

/-- Settles O21: the body of CFG_SURVEY writes MODE and the registers of InitSearch, and acknowledges. -/
theorem surveyBegins : Obligations.SurveyBegins := fun s hseq hmode =>
  ⟨beginSurvey s, exec_command .cfgSurvey s _ hseq hmode rfl, rfl, rfl, rfl, rfl, rfl, rfl, rfl, rfl,
    ((emits_setReg s .mode 1).trans (emits_initSearch _)).trans (emits_emitReply .ack3 _)⟩

/-- Settles O22: the body of CFG_RESET writes TARGET and the registers of InitCal and InitSearch, and acknowledges. -/
theorem resetCommandClearsTheSearch : Obligations.ResetCommandClearsTheSearch := fun s hseq hmode =>
  ⟨resetSearch s, exec_command .cfgReset s _ hseq hmode rfl, rfl, rfl, rfl, rfl, rfl, rfl, rfl, rfl, rfl, rfl,
    (((emits_setTarget s 0).trans (emits_initCal _)).trans (emits_initSearch _)).trans (emits_emitReply .ack4 _)⟩

/-- Settles O23: the bodies of CFG_NOP and CFG_INVALID are replies alone. -/
theorem nopAndInvalidCountsOnlyReply : Obligations.NopAndInvalidCountsOnlyReply := fun s hseq hmode =>
  ⟨⟨doNothing s, exec_command .cfgNop s _ hseq hmode rfl, emits_emitReply .ack5 s⟩,
    fun c _ _ => ⟨raiseInvalidCommand c s, exec_command (.cfgInvalid c) s _ hseq hmode rfl, emits_emitReply .error s⟩⟩

end Sys2Proof.Machine

/-! The SURVEY outcomes (44_survey R800 to R812): what each one writes and queues. -/

namespace Sys2Proof.Machine

/-- A step that writes no register but those of a list writes none but those of a longer one. -/
theorem Emits.mono {l m : List Reg} {out : List Byte} {s t : State} (h : Emits l out s t) (hsub : l ⊆ m) :
    Emits m out s t := by
  obtain ⟨hregs, hrest⟩ := h
  exact ⟨fun r hr => hregs r fun hl => hr (hsub hl), hrest⟩

/-- DIR written. -/
theorem emits_setDir (s : State) (d : Dir) : Emits [.dir] [] s { s with dir := d } := by
  cases d
  · exact emits_setReg s .dir 0
  · exact emits_setReg s .dir 1

/-- The current result recorded as the prior one (44_survey R804, R810). -/
theorem emits_recordPrior (s : State) : Emits [.priorFreq, .priorErr, .priorVar] [] s (recordPrior s) := by
  refine ⟨fun r hr => ?_, fun _ _ => rfl, ⟨rfl, rfl, rfl⟩, (List.append_nil _).symm⟩
  cases r
  case priorFreq | priorErr | priorVar => simp at hr
  all_goals rfl

/-- The undo of an action writes the calibration only (44_survey R812). -/
theorem emits_applyInverse (a : Action) (s : State) : Emits [.fine, .coarse] [] s (applyInverse a s) := by
  refine ⟨fun r hr => ?_, fun _ _ => ?_, ?_, ?_⟩
  · cases r
    case fine | coarse => simp at hr
    all_goals cases a <;> rfl
  · cases a <;> rfl
  · cases a <;> exact ⟨rfl, rfl, rfl⟩
  · cases a <;> exact (List.append_nil _).symm

/-- Terminal writes MODE, and queues its reply and the trailer (44_survey R813). -/
theorem emits_terminal (r : Reply) (res : BitVec 32 × BitVec 32) (s : State) :
    Emits [.mode] (replyByte r :: trailer res s.fine s.coarse) s (terminal r res s) := by
  rw [terminal_eq]
  refine ⟨fun q hq => ?_, fun _ _ => rfl, ⟨rfl, rfl, rfl⟩, rfl⟩
  cases q
  case mode => simp at hq
  all_goals rfl

/-- The reply of a coarse step in a direction (44_survey R806). -/
def coarseReply : Dir → Reply
  | .up => .cinc
  | .down => .cdec

/-- The reply of a fine step in a direction (44_survey R810). -/
def fineReply : Dir → Reply
  | .up => .finc
  | .down => .fdec

/-- A coarse step writes COARSE, LAST_ACTION and HAVE_PREV, and queues its reply (44_survey R806). -/
theorem emits_stepCoarse (d : Dir) (s : State) :
    Emits [.coarse, .lastAction, .havePrev] [replyByte (coarseReply d)] s (stepCoarse d s) := by
  cases d <;> refine ⟨fun r hr => ?_, fun _ _ => rfl, ⟨rfl, rfl, rfl⟩, rfl⟩ <;> cases r
  case up.coarse | up.lastAction | up.havePrev => simp at hr
  case down.coarse | down.lastAction | down.havePrev => simp at hr
  all_goals rfl

/-- A fine step writes FINE and LAST_ACTION, and queues its reply (44_survey R810). -/
theorem emits_stepFine (d : Dir) (s : State) :
    Emits [.fine, .lastAction] [replyByte (fineReply d)] s (stepFine d s) := by
  cases d <;> refine ⟨fun r hr => ?_, fun _ _ => rfl, ⟨rfl, rfl, rfl⟩, rfl⟩ <;> cases r
  case up.fine | up.lastAction => simp at hr
  case down.fine | down.lastAction => simp at hr
  all_goals rfl

/-- COARSE_MOVE writes DIR beside what the coarse step writes (44_survey R803, R806). -/
theorem emits_moveCoarse (d : Dir) (s : State) :
    Emits [.coarse, .lastAction, .havePrev, .dir] [replyByte (coarseReply d)] s (moveCoarse d s) :=
  ((emits_setDir s d).trans (emits_stepCoarse d _)).mono (by decide)

/-- COARSE_BOUNDARY writes DIR and MODE, and queues the current result (44_survey R803, R805). -/
theorem emits_endCoarse (d : Dir) (s : State) :
    Emits [.mode, .dir] (replyByte (boundaryReply d) :: trailer (s.estFreq, s.estVar10) s.fine s.coarse) s
      (endCoarse d s) :=
  ((emits_setDir s d).trans (emits_terminal (boundaryReply d) _ _)).mono (by decide)

/-- FINE_CONTINUE writes the prior result beside what the fine step writes (44_survey R810). -/
theorem emits_continueFine (d : Dir) (s : State) :
    Emits [.priorFreq, .priorErr, .priorVar, .fine, .lastAction] [replyByte (fineReply d)] s (continueFine d s) :=
  (emits_recordPrior s).trans (emits_stepFine d _)

/-- FINE_BOUNDARY writes the prior result and MODE, and queues the current result (44_survey R810, R811). -/
theorem emits_endFine (d : Dir) (s : State) :
    Emits [.priorFreq, .priorErr, .priorVar, .mode]
      (replyByte (boundaryReply d) :: trailer (s.estFreq, s.estVar10) s.fine s.coarse) s (endFine d s) :=
  (emits_recordPrior s).trans (emits_terminal (boundaryReply d) _ _)

/-- The fine search begun in a direction, before FINE_MOVE (44_survey R804). -/
def enterFine (d : Dir) (s : State) : State := recordPrior { s with phase := .fine, dir := d }

/-- The fine search begun writes PHASE, DIR and the prior result. -/
theorem emits_enterFine (d : Dir) (s : State) :
    Emits [.phase, .dir, .priorFreq, .priorErr, .priorVar] [] s (enterFine d s) :=
  ((emits_setReg s .phase 1).trans (emits_setDir _ d)).trans (emits_recordPrior _)

/-- COARSE_BRACKET begins the fine search, and ends it at once at the fine boundary (44_survey R804, R810, R811). -/
theorem bracketCoarse_eq (d : Dir) (s : State) :
    bracketCoarse d s =
      if fineAtEnd d s then reachBoundary d (enterFine d s) else stepFine d (enterFine d s) := by
  cases d <;> rfl

/-- The last action undone, before FINE_ROLLBACK ends the survey (44_survey R808, R812). -/
def undone (s : State) : State := { applyInverse s.lastAction s with lastAction := .none }

/-- The undo writes the calibration and LAST_ACTION. -/
theorem emits_undone (s : State) : Emits [.fine, .coarse, .lastAction] [] s (undone s) :=
  (emits_applyInverse s.lastAction s).trans (emits_setReg _ .lastAction 0)

/-- The undo leaves the calibration that the inverse of the last action gives. -/
theorem undone_calibration (s : State) (a : Action) (ha : s.lastAction = a) :
    (undone s).fine = (applyInverse a s).fine ∧ (undone s).coarse = (applyInverse a s).coarse := by
  subst ha
  exact ⟨rfl, rfl⟩

/-- FINE_ROLLBACK ends the survey with the prior result, which the undo leaves (44_survey R808). -/
theorem rollBackFine_eq (s : State) : rollBackFine s = terminal .finish (s.priorFreq, s.priorVar) (undone s) := by
  unfold rollBackFine undone
  cases s.lastAction <;> rfl

/-- FINE_ROLLBACK writes the calibration, LAST_ACTION and MODE, and queues the prior result with the calibration after
the undo (44_survey R808). -/
theorem emits_rollBackFine (s : State) :
    Emits [.mode, .lastAction, .fine, .coarse]
      (0xD2 :: trailer (s.priorFreq, s.priorVar) (undone s).fine (undone s).coarse) s (rollBackFine s) := by
  rw [rollBackFine_eq]
  exact ((emits_undone s).trans (emits_terminal .finish _ _)).mono (by decide)

end Sys2Proof.Machine

/-! The survey search (44_survey R800 to R814): which outcome a measured window selects, and what its row then answers. -/

namespace Sys2Proof.Machine

/-- PROC_SURVEY is the step of SEQ = PROC in SURVEY. -/
theorem procSurveys_eq_true (s : State) : procSurveys s = true ↔ s.seq = .proc ∧ s.mode = .survey := by
  simp [procSurveys]

/-- The row of the selected outcome answers the outcome's effect. -/
theorem exec_of_selectOutcome (o : SurveyOutcome) (s : State) (hseq : s.seq = .proc) (hmode : s.mode = .survey)
    (ho : selectOutcome s = o) : exec (outcomeInstr o) s = .next (applyOutcome o s) := by
  have hselected : selected o s = true := by
    simp [selected, (procSurveys_eq_true s).mpr ⟨hseq, hmode⟩, ho]
  rw [exec_outcomeInstr, if_pos hselected]

/-- An outcome whose row answers a state is the selected one. -/
theorem selectOutcome_of_exec (o : SurveyOutcome) (s t : State) (h : exec (outcomeInstr o) s = .next t) :
    selectOutcome s = o := by
  rw [exec_outcomeInstr] at h
  split at h
  · simp_all [selected]
  · cases h

/-- PROC_SURVEY answers what the row of an outcome does, where the measured window selects it. -/
theorem exec_procSurvey_of_measured (s m : State) (hseq : s.seq = .proc) (hmode : s.mode = .survey)
    (hm : measureWindow s = .ok m) :
    exec (outcomeInstr (selectOutcome m)) m = .next (applyOutcome (selectOutcome m) m) ∧
      exec .procSurvey s = .next { applyOutcome (selectOutcome m) m with seq := .tx } := by
  refine ⟨?_, execProcSurvey_of_measured s m ((procSurveys_eq_true s).mpr ⟨hseq, hmode⟩) hm⟩
  obtain ⟨a, f, v, rfl⟩ := measureWindow_fields s m hm
  exact exec_of_selectOutcome _ _ hseq hmode rfl

/-- Settles O33: the window is measured, and no row but the selected outcome's has a step. -/
theorem procSurveyRunsTheOutcome : Obligations.ProcSurveyRunsTheOutcome := by
  refine fun s hseq hmode => ⟨fun hclose => ?_, fun hclose => ?_⟩
  · have hm := measureWindow_of_complete s hclose
    obtain ⟨hrow, hproc⟩ := exec_procSurvey_of_measured s _ hseq hmode hm
    exact ⟨_, _, _, estimate_eq _, hrow, hproc, fun o t h => (selectOutcome_of_exec o _ t h).symm⟩
  · have hm := measureWindow_of_expired s hclose
    obtain ⟨hrow, hproc⟩ := exec_procSurvey_of_measured s _ hseq hmode hm
    have htimeout : selectOutcome { s with ready := false } = .timeout := (selectOutcome_timeout _).mpr hclose
    rw [htimeout] at hrow hproc
    exact ⟨_, hrow, hproc⟩

/-- An error that calls for a direction has it (44_survey R801). -/
theorem dirOf_of_callsFor (s : State) (d : Dir) (h : CallsFor s d) : dirOf (err s) = some d := by
  cases d
  · exact dirOf_of_gt s h
  · exact dirOf_of_lt s h

/-- An error of 0 is EXACT_HIT in either phase (44_survey R802). -/
theorem selectOutcome_of_hit (s : State) (hclose : s.closeCause = .complete) (h : s.estFreq = s.target) :
    selectOutcome s = .exactHit := by
  simp [selectOutcome, hclose, dirOf_of_eq s h]

/-- Settles O34: the error is 0. -/
theorem exactHitFinishes : Obligations.ExactHitFinishes := by
  intro s hseq hmode hclose hhit
  have hexec := exec_of_selectOutcome _ s hseq hmode (selectOutcome_of_hit s hclose hhit)
  exact ⟨hitExactly s, hexec, rfl, emits_terminal .finish (cur s) s⟩

/-- The end, in a direction, of a range up to `top` (10_state R112). -/
def rangeEnd (d : Dir) (top : BitVec 8) : BitVec 8 :=
  match d with
  | .up => top
  | .down => 0

/-- No coarse step is left at the end of the coarse range (44_survey R803). -/
theorem coarseAtEnd_eq_true (d : Dir) (s : State) :
    coarseAtEnd d s = true ↔ s.coarse = rangeEnd d s.cfg.coarseMax := by
  cases d <;> exact beq_iff_eq

/-- A coarse step is left away from the end of the coarse range. -/
theorem coarseAtEnd_eq_false (d : Dir) (s : State) :
    coarseAtEnd d s = false ↔ s.coarse ≠ rangeEnd d s.cfg.coarseMax := by
  rw [← Bool.not_eq_true, coarseAtEnd_eq_true]

/-- No fine step is left at the end of the fine range (44_survey R810). -/
theorem fineAtEnd_eq_true (d : Dir) (s : State) : fineAtEnd d s = true ↔ s.fine = rangeEnd d s.cfg.fineMax := by
  cases d <;> exact beq_iff_eq

/-- A fine step is left away from the end of the fine range. -/
theorem fineAtEnd_eq_false (d : Dir) (s : State) : fineAtEnd d s = false ↔ s.fine ≠ rangeEnd d s.cfg.fineMax := by
  rw [← Bool.not_eq_true, fineAtEnd_eq_true]

section Coarse
variable (s : State) (d : Dir) (hseq : s.seq = .proc) (hmode : s.mode = .survey) (hclose : s.closeCause = .complete)
  (hphase : s.phase = .coarse) (hcalls : CallsFor s d)

include hclose hphase hcalls in
/-- In the coarse search the outcome is COARSE_STEP's choice (44_survey R803). -/
theorem selectOutcome_of_coarse : selectOutcome s = coarseChoice d s := by
  simp [selectOutcome, hclose, dirOf_of_callsFor s d hcalls, hphase]

/-- While the sign has not changed, COARSE_STEP moves as long as the range lasts (44_survey R803). -/
theorem coarseChoice_of_same_sign (hsign : s.havePrev = true → s.dir = d) :
    coarseChoice d s = if coarseAtEnd d s then .coarseBoundary d else .coarseMove d := by
  have hsame : ¬(s.havePrev && d != s.dir) = true := by
    rw [Bool.and_eq_true, bne_iff_ne]
    exact fun ⟨hprev, hne⟩ => hne (hsign hprev).symm
  rw [coarseChoice, if_neg hsame]

/-- Once the sign has changed, COARSE_STEP brackets the target (44_survey R803, R804). -/
theorem coarseChoice_of_sign_change (hprev : s.havePrev = true) (hne : d ≠ s.dir) :
    coarseChoice d s = .coarseBracket d := by
  simp [coarseChoice, hprev, hne]

include hseq hmode hclose hphase hcalls

/-- COARSE_MOVE answers while the sign has not changed and the range lasts (44_survey R806). -/
theorem exec_coarseMove (hsign : s.havePrev = true → s.dir = d) (hend : coarseAtEnd d s = false) :
    exec (.coarseMove d) s = .next (moveCoarse d s) := by
  refine exec_of_selectOutcome (.coarseMove d) s hseq hmode ?_
  rw [selectOutcome_of_coarse s d hclose hphase hcalls, coarseChoice_of_same_sign s d hsign, hend]
  rfl

/-- COARSE_BOUNDARY answers while the sign has not changed, at the end of the range (44_survey R805). -/
theorem exec_coarseBoundary (hsign : s.havePrev = true → s.dir = d) (hend : coarseAtEnd d s = true) :
    exec (.coarseBoundary d) s = .next (endCoarse d s) := by
  refine exec_of_selectOutcome (.coarseBoundary d) s hseq hmode ?_
  rw [selectOutcome_of_coarse s d hclose hphase hcalls, coarseChoice_of_same_sign s d hsign, if_pos hend]

/-- COARSE_BRACKET answers once the sign has changed: the fine search is begun in the new direction, and its first step is
taken or its boundary reported (44_survey R804, R810, R811). -/
theorem exec_coarseBracket (hprev : s.havePrev = true) (hne : d ≠ s.dir) :
    ∃ t, exec (.coarseBracket d) s = .next t ∧ t.phase = .fine ∧ t.dir = d ∧ t.priorFreq = s.estFreq ∧
      t.priorErr.toInt = currentError s ∧ t.priorVar = s.estVar10 ∧
      (fineAtEnd d s = false → t = stepFine d (enterFine d s)) ∧
      (fineAtEnd d s = true → t = reachBoundary d (enterFine d s)) := by
  have hchoice := (selectOutcome_of_coarse s d hclose hphase hcalls).trans
    (coarseChoice_of_sign_change s d hprev hne)
  refine ⟨bracketCoarse d s, exec_of_selectOutcome _ s hseq hmode hchoice, ?_⟩
  rw [bracketCoarse_eq]
  cases fineAtEnd d s with
  | true => exact ⟨rfl, rfl, rfl, err_toInt s, rfl, nofun, fun _ => rfl⟩
  | false => cases d <;> exact ⟨rfl, rfl, rfl, err_toInt s, rfl, fun _ => rfl, nofun⟩

end Coarse

/-- Settles O35: the coarse step in the direction that the error calls for. -/
theorem coarseMoveSteps : Obligations.CoarseMoveSteps := by
  intro s hseq hmode hclose hphase
  have hexec (d : Dir) := exec_coarseMove s d hseq hmode hclose hphase
  refine ⟨fun hbelow hsign hend => ?_, fun habove hsign hend => ?_⟩
  · have hmove := hexec .up hbelow hsign ((coarseAtEnd_eq_false .up s).mpr hend)
    exact ⟨_, hmove, rfl, rfl, rfl, rfl, emits_moveCoarse .up s⟩
  · have hmove := hexec .down habove hsign ((coarseAtEnd_eq_false .down s).mpr hend)
    exact ⟨_, hmove, rfl, rfl, rfl, rfl, emits_moveCoarse .down s⟩

/-- Settles O36: the boundary outcome in the direction that the error calls for. -/
theorem coarseBoundaryEndsTheSurvey : Obligations.CoarseBoundaryEndsTheSurvey := by
  intro s hseq hmode hclose hphase
  have hexec (d : Dir) := exec_coarseBoundary s d hseq hmode hclose hphase
  refine ⟨fun hbelow hsign hend => ?_, fun habove hsign hend => ?_⟩
  · have hbound := hexec .up hbelow hsign ((coarseAtEnd_eq_true .up s).mpr hend)
    exact ⟨_, hbound, rfl, rfl, emits_endCoarse .up s⟩
  · have hbound := hexec .down habove hsign ((coarseAtEnd_eq_true .down s).mpr hend)
    exact ⟨_, hbound, rfl, rfl, emits_endCoarse .down s⟩

/-- Settles O37: the fine search begun, with its first step or its boundary. -/
theorem bracketStartsFineSearch : Obligations.BracketStartsFineSearch := by
  intro s hseq hmode hclose hphase hprev
  have hbracket (d : Dir) (hcalls : CallsFor s d) := exec_coarseBracket s d hseq hmode hclose hphase hcalls hprev
  refine ⟨fun hbelow hdir => ?_, fun habove hdir => ?_⟩
  · obtain ⟨t, hexec, hfine, hnew, hfreq, herr, hvar, hstep, hbound⟩ := hbracket .up hbelow (by rw [hdir]; nofun)
    refine ⟨t, hexec, hfine, hnew, hfreq, herr, hvar, fun hend => ?_, fun hend => ?_⟩
    · rw [hstep ((fineAtEnd_eq_false .up s).mpr hend)]
      exact ⟨rfl, rfl, (emits_enterFine .up s).trans (emits_stepFine .up _)⟩
    · rw [hbound ((fineAtEnd_eq_true .up s).mpr hend)]
      exact ⟨rfl, (emits_enterFine .up s).trans (emits_terminal .max _ _)⟩
  · obtain ⟨t, hexec, hfine, hnew, hfreq, herr, hvar, hstep, hbound⟩ := hbracket .down habove (by rw [hdir]; nofun)
    refine ⟨t, hexec, hfine, hnew, hfreq, herr, hvar, fun hend => ?_, fun hend => ?_⟩
    · rw [hstep ((fineAtEnd_eq_false .down s).mpr hend)]
      exact ⟨rfl, rfl, (emits_enterFine .down s).trans (emits_stepFine .down _)⟩
    · rw [hbound ((fineAtEnd_eq_true .down s).mpr hend)]
      exact ⟨rfl, (emits_enterFine .down s).trans (emits_terminal .min _ _)⟩

/-- worse, written out (44_survey R807). -/
theorem worse_eq_true (s : State) : worse s = true ↔ s.priorErr.toInt.natAbs < (currentError s).natAbs :=
  decide_eq_true_iff

/-- small, written out (44_survey R807). -/
theorem small_eq_true (s : State) : small s = true ↔ s.priorErr.toInt.natAbs ≤ s.cfg.baud := decide_eq_true_iff

section Fine
variable (s : State) (d : Dir) (hseq : s.seq = .proc) (hmode : s.mode = .survey) (hclose : s.closeCause = .complete)
  (hphase : s.phase = .fine) (hcalls : CallsFor s d)

/-- A worse error, with the prior one small or the target crossed, is FINE_STEP's rollback (44_survey R807). -/
theorem fineChoice_of_rollback (hworse : worse s = true) (h : small s = true ∨ d ≠ s.dir) :
    fineChoice d s = .fineRollback := by
  simp only [fineChoice]
  rw [if_pos (by simpa [hworse] using h)]

/-- The target crossed without a worse error is FINE_STEP's crossing (44_survey R807). -/
theorem fineChoice_of_cross (hworse : ¬worse s = true) (hcrossed : d ≠ s.dir) : fineChoice d s = .fineCross := by
  simp [fineChoice, hworse, hcrossed]

/-- In every other case FINE_STEP goes on in DIR as long as the range lasts (44_survey R807, R810). -/
theorem fineChoice_of_continue (hdir : s.dir = d) (h : ¬worse s = true ∨ ¬small s = true) :
    fineChoice d s = if fineAtEnd d s then .fineBoundary d else .fineContinue d := by
  have hgoes : ¬(worse s && small s) = true := by rwa [Bool.and_eq_true, not_and_or]
  simp [fineChoice, hdir, hgoes]

include hseq hmode hclose hphase hcalls

/-- In the fine search the row of FINE_STEP's choice answers (44_survey R807). -/
theorem exec_of_fineChoice (o : SurveyOutcome) (h : fineChoice d s = o) :
    exec (outcomeInstr o) s = .next (applyOutcome o s) := by
  refine exec_of_selectOutcome o s hseq hmode ?_
  simp [selectOutcome, hclose, dirOf_of_callsFor s d hcalls, hphase, h]

/-- FINE_CONTINUE answers in DIR as long as the range lasts (44_survey R810). -/
theorem exec_fineContinue (hdir : s.dir = d) (h : ¬worse s = true ∨ ¬small s = true) (hend : fineAtEnd d s = false) :
    exec (.fineContinue d) s = .next (continueFine d s) := by
  refine exec_of_fineChoice s d hseq hmode hclose hphase hcalls (.fineContinue d) ?_
  rw [fineChoice_of_continue s d hdir h, hend]
  rfl

/-- FINE_BOUNDARY answers in DIR at the end of the range (44_survey R811). -/
theorem exec_fineBoundary (hdir : s.dir = d) (h : ¬worse s = true ∨ ¬small s = true) (hend : fineAtEnd d s = true) :
    exec (.fineBoundary d) s = .next (endFine d s) := by
  refine exec_of_fineChoice s d hseq hmode hclose hphase hcalls (.fineBoundary d) ?_
  rw [fineChoice_of_continue s d hdir h, if_pos hend]

end Fine

/-- Settles O38: FINE_STEP rolls back, whatever the last action. -/
theorem rollbackFinishesWithThePriorResult : Obligations.RollbackFinishesWithThePriorResult := by
  intro s nd hseq hmode hclose hphase hcalls hworse hsearch
  have hchoice := fineChoice_of_rollback s nd ((worse_eq_true s).mpr hworse)
    (hsearch.imp_left (small_eq_true s).mpr)
  have hexec : exec .fineRollback s = .next (rollBackFine s) :=
    exec_of_fineChoice s nd hseq hmode hclose hphase hcalls _ hchoice
  have hemits := emits_rollBackFine s
  rw [rollBackFine_eq, terminal_eq] at hexec hemits
  have hundo := undone_calibration s
  exact ⟨_, hexec, rfl, rfl, hundo .finc, hundo .fdec, fun ha => (hundo .cinc ha).symm,
    fun ha => (hundo .cdec ha).symm, fun ha => (hundo .none ha).symm, hemits⟩

/-- Settles O39: FINE_STEP finishes on the crossing. -/
theorem crossingFinishesWithTheCurrentResult : Obligations.CrossingFinishesWithTheCurrentResult := by
  intro s nd hseq hmode hclose hphase hcalls hcrossed hbetter
  have hchoice := fineChoice_of_cross s nd ((worse_eq_true s).not.mpr (by omega)) hcrossed
  have hexec := exec_of_fineChoice s nd hseq hmode hclose hphase hcalls _ hchoice
  exact ⟨crossFine s, hexec, rfl, emits_terminal .finish (cur s) s⟩

/-- A result that is no worse, or a prior error above THRESH, lets the search go on (44_survey R807). -/
theorem not_worse_or_not_small (s : State)
    (h : (currentError s).natAbs ≤ s.priorErr.toInt.natAbs ∨ s.cfg.baud < s.priorErr.toInt.natAbs) :
    ¬worse s = true ∨ ¬small s = true := by
  rw [worse_eq_true, small_eq_true]
  omega

/-- Settles O40: the result is recorded, and the fine step in DIR taken. -/
theorem fineSearchContinues : Obligations.FineSearchContinues := by
  intro s hseq hmode hclose hphase hcalls hsearch
  have hexec (d : Dir) (hdir : s.dir = d) :=
    exec_fineContinue s d hseq hmode hclose hphase (hdir ▸ hcalls) hdir (not_worse_or_not_small s hsearch)
  refine ⟨fun hdir hend => ?_, fun hdir hend => ?_⟩
  · have hmove := hexec .up hdir ((fineAtEnd_eq_false .up s).mpr hend)
    exact ⟨_, hmove, rfl, rfl, rfl, err_toInt s, rfl, emits_continueFine .up s⟩
  · have hmove := hexec .down hdir ((fineAtEnd_eq_false .down s).mpr hend)
    exact ⟨_, hmove, rfl, rfl, rfl, err_toInt s, rfl, emits_continueFine .down s⟩

/-- Settles O41: the result is recorded, and the boundary in DIR reported. -/
theorem fineBoundaryEndsTheSurvey : Obligations.FineBoundaryEndsTheSurvey := by
  intro s hseq hmode hclose hphase hcalls hsearch
  have hexec (d : Dir) (hdir : s.dir = d) :=
    exec_fineBoundary s d hseq hmode hclose hphase (hdir ▸ hcalls) hdir (not_worse_or_not_small s hsearch)
  refine ⟨fun hdir hend => ?_, fun hdir hend => ?_⟩
  · have hbound := hexec .up hdir ((fineAtEnd_eq_true .up s).mpr hend)
    exact ⟨_, hbound, rfl, rfl, err_toInt s, rfl, emits_endFine .up s⟩
  · have hbound := hexec .down hdir ((fineAtEnd_eq_true .down s).mpr hend)
    exact ⟨_, hbound, rfl, rfl, err_toInt s, rfl, emits_endFine .down s⟩

end Sys2Proof.Machine

/-! One status byte for each SURVEY window (44_survey R815), and the bound on their number (44_survey R816). -/

namespace Sys2Proof.Machine

/-- What R815 asks of a window with the outcome o, with 30_encoding R331: one status byte that is no acknowledgement, ERROR
for the timeout alone, and ten bytes after it and MODE FINISHED where it is terminal alone. -/
def AnswersWindow (o : SurveyOutcome) (s t : State) : Prop :=
  ∃ r out, t.txq = s.txq ++ replyByte r :: out ∧
    (replyClass r = .terminal → out.length = 10 ∧ t.mode = .finished) ∧
    (replyClass r ≠ .terminal → out = [] ∧ t.mode ≠ .finished) ∧ replyClass r ≠ .ack ∧ (r = .error ↔ o = .timeout)

/-- The reply of a coarse step is an adjustment (30_encoding R320). -/
theorem coarseReply_class (d : Dir) : replyClass (coarseReply d) = .coarseAdjust := by cases d <;> rfl

/-- The reply of a fine step is an adjustment (30_encoding R320). -/
theorem fineReply_class (d : Dir) : replyClass (fineReply d) = .fineAdjust := by cases d <;> rfl

/-- MIN and MAX are terminal (30_encoding R320). -/
theorem boundaryReply_class (d : Dir) : replyClass (boundaryReply d) = .terminal := by cases d <;> rfl

/-- An adjustment alone answers a window. -/
theorem answersWindow_of_adjustment {l : List Reg} {r : Reply} {s t : State} {o : SurveyOutcome}
    (h : Emits l [replyByte r] s t) (hmode : t.mode ≠ .finished)
    (hr : replyClass r = .coarseAdjust ∨ replyClass r = .fineAdjust) (ho : o ≠ .timeout) : AnswersWindow o s t := by
  obtain ⟨-, -, -, hq⟩ := h
  refine ⟨r, [], hq, fun hterminal => ?_, fun _ => ⟨rfl, hmode⟩, fun hack => ?_, iff_of_false ?_ ho⟩
  · simp [hterminal] at hr
  · simp [hack] at hr
  · rintro rfl
    simp [replyClass] at hr

/-- A terminal reply and its trailer answer a window. -/
theorem answersWindow_of_terminal {l : List Reg} {r : Reply} {res : BitVec 32 × BitVec 32} {fine coarse : Byte}
    {s t : State} {o : SurveyOutcome} (h : Emits l (replyByte r :: trailer res fine coarse) s t)
    (hmode : t.mode = .finished) (hr : replyClass r = .terminal) (ho : o ≠ .timeout) : AnswersWindow o s t := by
  obtain ⟨-, -, -, hq⟩ := h
  refine ⟨r, _, hq, fun _ => ⟨trailer_length res fine coarse, hmode⟩, absurd hr, ?_, iff_of_false ?_ ho⟩
  · rw [hr]
    nofun
  · rintro rfl
    cases hr

/-- Every outcome answers its window (44_survey R802 to R811, 60_exceptions R911). -/
theorem answersWindow_applyOutcome (o : SurveyOutcome) (s : State) (hmode : s.mode ≠ .finished) :
    AnswersWindow o s (applyOutcome o s) := by
  cases o with
  | exactHit => exact answersWindow_of_terminal (r := .finish) (emits_terminal .finish (cur s) s) rfl rfl nofun
  | coarseMove d =>
    have hmode' : (applyOutcome (.coarseMove d) s).mode ≠ .finished := by cases d <;> exact hmode
    exact answersWindow_of_adjustment (emits_moveCoarse d s) hmode' (.inl (coarseReply_class d)) nofun
  | coarseBoundary d => exact answersWindow_of_terminal (emits_endCoarse d s) rfl (boundaryReply_class d) nofun
  | coarseBracket d =>
    rw [applyOutcome, bracketCoarse_eq]
    split
    · have hemits := (emits_enterFine d s).trans (emits_terminal (boundaryReply d) (cur (enterFine d s)) _)
      exact answersWindow_of_terminal hemits rfl (boundaryReply_class d) nofun
    · have hemits := (emits_enterFine d s).trans (emits_stepFine d _)
      exact answersWindow_of_adjustment hemits (by cases d <;> exact hmode) (.inr (fineReply_class d)) nofun
  | fineRollback => exact answersWindow_of_terminal (r := .finish) (emits_rollBackFine s) rfl rfl nofun
  | fineCross => exact answersWindow_of_terminal (r := .finish) (emits_terminal .finish (cur s) s) rfl rfl nofun
  | fineContinue d =>
    have hmode' : (applyOutcome (.fineContinue d) s).mode ≠ .finished := by cases d <;> exact hmode
    exact answersWindow_of_adjustment (emits_continueFine d s) hmode' (.inr (fineReply_class d)) nofun
  | fineBoundary d => exact answersWindow_of_terminal (emits_endFine d s) rfl (boundaryReply_class d) nofun
  | timeout => exact ⟨.error, [], rfl, nofun, fun _ => ⟨rfl, nofun⟩, nofun, iff_of_true rfl rfl⟩

/-- Settles O43: the selected outcome answers the window, and it is the timeout where the window expired. -/
theorem surveyStepRepliesOnce : Obligations.SurveyStepRepliesOnce := by
  intro s t hexec
  obtain ⟨hproc, m, hm, rfl⟩ := execProcSurvey_next s t hexec
  obtain ⟨-, hmode⟩ := (procSurveys_eq_true s).mp hproc
  obtain ⟨a, f, v, rfl⟩ := measureWindow_fields s m hm
  obtain ⟨r, out, hq, hterminal, hother, hack, herror⟩ :=
    answersWindow_applyOutcome (selectOutcome _) { s with ready := false, estAvg := a, estFreq := f, estVar10 := v }
      (by rw [hmode]; nofun)
  exact ⟨r, out, hq, hterminal, hother, hack, herror.trans (selectOutcome_timeout _)⟩

/-- COARSE_STEP moves only while the sign has not changed (44_survey R803). -/
theorem coarseChoice_coarseMove_sign (nd d : Dir) (s : State) (h : coarseChoice nd s = .coarseMove d)
    (hprev : s.havePrev = true) : s.dir = d := by
  by_cases hne : nd = s.dir
  · rw [coarseChoice_of_same_sign s nd fun _ => hne.symm] at h
    split at h <;> cases h
    exact hne.symm
  · rw [coarseChoice_of_sign_change s nd hprev hne] at h
    cases h

/-- COARSE_MOVE is selected only while the sign has not changed (44_survey R803). -/
theorem selectOutcome_coarseMove_sign (s : State) (d : Dir) (h : selectOutcome s = .coarseMove d)
    (hprev : s.havePrev = true) : s.dir = d := by
  obtain ht | ht | ⟨-, nd, hc⟩ | ⟨-, nd, hc⟩ := selectOutcome_cases s
  · exact nomatch h.symm.trans ht
  · exact nomatch h.symm.trans ht
  · exact coarseChoice_coarseMove_sign nd d s (hc.symm.trans h) hprev
  · exact absurd (hc.symm.trans h) (fineChoice_ne_coarseMove nd d s)

/-- FINE_STEP brackets nothing. -/
theorem fineChoice_ne_coarseBracket (nd d : Dir) (s : State) : fineChoice nd s ≠ .coarseBracket d := by
  simp only [fineChoice]
  split
  · nofun
  · split
    · nofun
    · split <;> nofun

/-- COARSE_BRACKET is selected in the coarse search (44_survey R804). -/
theorem selectOutcome_coarseBracket (s : State) (d : Dir) (h : selectOutcome s = .coarseBracket d) :
    s.phase = .coarse := by
  obtain ht | ht | ⟨hphase, -⟩ | ⟨-, nd, hc⟩ := selectOutcome_cases s
  · exact nomatch h.symm.trans ht
  · exact nomatch h.symm.trans ht
  · exact hphase
  · exact absurd (hc.symm.trans h) (fineChoice_ne_coarseBracket nd d s)

/-- How many steps in a direction the range up to `top` leaves at a position. -/
def stepsLeft (d : Dir) (top pos : BitVec 8) : Nat :=
  match d with
  | .up => top.toNat - pos.toNat
  | .down => pos.toNat

/-- The position one step on in a direction. -/
def stepOn (d : Dir) (pos : BitVec 8) : BitVec 8 :=
  match d with
  | .up => pos + 1
  | .down => pos - 1

/-- No more steps are left than the range has. -/
theorem stepsLeft_le (d : Dir) (top pos : BitVec 8) (h : pos.toNat ≤ top.toNat) : stepsLeft d top pos ≤ top.toNat := by
  cases d
  · exact h
  · exact Nat.sub_le _ _

/-- A step away from the end leaves fewer. -/
theorem stepsLeft_stepOn (d : Dir) (top pos : BitVec 8) (h : pos.toNat ≤ top.toNat)
    (hend : pos ≠ rangeEnd d top) :
    stepsLeft d top (stepOn d pos) < stepsLeft d top pos := by
  cases d <;> simp only [stepsLeft, stepOn, rangeEnd] at hend ⊢ <;> bv_omega

/-- The bound of the fine search: the fine steps left in DIR (44_survey R816). -/
theorem surveyBudget_of_fine (s : State) (hphase : s.phase = .fine) :
    surveyBudget s = stepsLeft s.dir s.cfg.fineMax s.fine := by
  cases hdir : s.dir <;> simp [surveyBudget, stepsLeft, hphase, hdir]

/-- The bound of the coarse search: a whole fine search, and the coarse steps left in DIR, or all of them before the first
(44_survey R816). -/
theorem surveyBudget_of_coarse (s : State) (hphase : s.phase = .coarse) :
    surveyBudget s = s.cfg.fineMax.toNat +
      if s.havePrev then stepsLeft s.dir s.cfg.coarseMax s.coarse else s.cfg.coarseMax.toNat := by
  cases hdir : s.dir <;> simp [surveyBudget, stepsLeft, hphase, hdir]

/-- A fine step in DIR away from the end of the range uses up part of the bound (44_survey R816). -/
theorem surveyBudget_stepFine (d : Dir) (s : State) (h : InRange s) (hphase : s.phase = .fine) (hdir : s.dir = d)
    (hend : fineAtEnd d s = false) : surveyBudget (stepFine d s) < surveyBudget s := by
  have hafter : surveyBudget (stepFine d s) = stepsLeft s.dir s.cfg.fineMax (stepOn d s.fine) := by
    cases d <;> exact surveyBudget_of_fine _ hphase
  rw [hafter, surveyBudget_of_fine s hphase, hdir]
  exact stepsLeft_stepOn d _ _ h.fine ((fineAtEnd_eq_false d s).mp hend)

/-- A coarse step away from the end of the range, with the sign not changed, uses up part of the bound (44_survey
R816). -/
theorem surveyBudget_moveCoarse (d : Dir) (s : State) (h : InRange s) (hphase : s.phase = .coarse)
    (hsign : s.havePrev = true → s.dir = d) (hend : coarseAtEnd d s = false) :
    surveyBudget (moveCoarse d s) < surveyBudget s := by
  have hstep : stepsLeft d s.cfg.coarseMax (stepOn d s.coarse) < stepsLeft d s.cfg.coarseMax s.coarse :=
    stepsLeft_stepOn d _ _ h.coarse ((coarseAtEnd_eq_false d s).mp hend)
  have hafter : surveyBudget (moveCoarse d s) =
      s.cfg.fineMax.toNat + stepsLeft d s.cfg.coarseMax (stepOn d s.coarse) := by
    cases d <;> exact surveyBudget_of_coarse _ hphase
  have hbefore : s.cfg.fineMax.toNat + stepsLeft d s.cfg.coarseMax s.coarse ≤ surveyBudget s := by
    rw [surveyBudget_of_coarse s hphase]
    split
    · rw [hsign ‹_›]
    · exact Nat.add_le_add_left (stepsLeft_le d _ _ h.coarse) _
  omega

/-- The bracketing window, where the survey goes on, leaves less than a whole fine search (44_survey R816). -/
theorem surveyBudget_bracketCoarse (d : Dir) (s : State) (h : InRange s) (hphase : s.phase = .coarse)
    (hend : fineAtEnd d s = false) : surveyBudget (bracketCoarse d s) < surveyBudget s := by
  have hentered : InRange (enterFine d s) := InRange.recordPrior { h with }
  calc surveyBudget (bracketCoarse d s)
      = surveyBudget (stepFine d (enterFine d s)) := by rw [bracketCoarse_eq, hend]; rfl
    _ < surveyBudget (enterFine d s) := surveyBudget_stepFine d _ hentered rfl rfl (by cases d <;> exact hend)
    _ = stepsLeft d s.cfg.fineMax s.fine := surveyBudget_of_fine _ rfl
    _ ≤ s.cfg.fineMax.toNat := stepsLeft_le d _ _ h.fine
    _ ≤ surveyBudget s := by rw [surveyBudget_of_coarse s hphase]; exact Nat.le_add_right _ _

/-- A terminal reply ends the survey. -/
theorem terminal_mode_ne_survey (r : Reply) (res : BitVec 32 × BitVec 32) (s : State) :
    (terminal r res s).mode ≠ .survey := by
  rw [terminal_eq]
  nofun

/-- A selected outcome that does not end the survey uses up part of the bound (44_survey R816). -/
theorem surveyBudget_applyOutcome (s : State) (h : InRange s)
    (hmode : (applyOutcome (selectOutcome s) s).mode = .survey) :
    surveyBudget (applyOutcome (selectOutcome s) s) < surveyBudget s := by
  cases ho : selectOutcome s with rw [ho] at hmode
  | exactHit => exact absurd hmode (terminal_mode_ne_survey _ _ _)
  | coarseMove d =>
    obtain ⟨hphase, hend⟩ := selectOutcome_coarseMove s d ho
    exact surveyBudget_moveCoarse d s h hphase (selectOutcome_coarseMove_sign s d ho) hend
  | coarseBoundary d => exact absurd hmode (terminal_mode_ne_survey _ _ _)
  | coarseBracket d =>
    cases hend : fineAtEnd d s with
    | true =>
      rw [applyOutcome, bracketCoarse_eq, if_pos hend] at hmode
      exact absurd hmode (terminal_mode_ne_survey _ _ _)
    | false => exact surveyBudget_bracketCoarse d s h (selectOutcome_coarseBracket s d ho) hend
  | fineRollback => exact absurd hmode (terminal_mode_ne_survey _ _ _)
  | fineCross => exact absurd hmode (terminal_mode_ne_survey _ _ _)
  | fineContinue d =>
    obtain ⟨hphase, hdir, hend⟩ := selectOutcome_fineContinue s d ho
    exact surveyBudget_stepFine d (recordPrior s) h.recordPrior hphase hdir (by cases d <;> exact hend)
  | fineBoundary d => exact absurd hmode (terminal_mode_ne_survey _ _ _)
  | timeout => exact nomatch hmode

/-- A step's effect keeps the bound, a PROC step and a reset apart (44_survey R816). -/
theorem did_surveyBudget (p : Prop) (s t : State) (hd : Did p s t) :
    surveyBudget t = surveyBudget s ∨ s.seq = .proc ∨ p := by
  cases hd with
  | nothing => exact .inl rfl
  | opened _ _ ho =>
    rw [openWindow_eq] at ho
    cases ho
    exact .inl rfl
  | captured e l _ _ _ _ hc => obtain ⟨rfl, -⟩ | ⟨rfl, -⟩ := captureEdge_ok e s t hc <;> exact .inl rfl
  | expired _ => exact .inl rfl
  | wasReset hp => exact .inr (.inr hp)
  | configured _ _ ready _ _ => exact .inr (.inl ready.1)
  | surveyed _ ready _ => exact .inr (.inl ready.1)
  | sent b rest _ =>
    rw [sendByte_eq]
    exact .inl rfl
  | ended _ =>
    rw [endResponse_eq]
    exact .inl rfl

/-- CFG_SURVEY begins with the whole bound (44_survey R816). -/
theorem surveyBudget_beginSurvey (s : State) :
    surveyBudget (beginSurvey s) = s.cfg.coarseMax.toNat + s.cfg.fineMax.toNat :=
  Nat.add_comm s.cfg.fineMax.toNat s.cfg.coarseMax.toNat

/-- Settles O44: the windows use the bound up, CFG_SURVEY sets it, and no other step writes the search registers. -/
theorem surveyTerminates : Obligations.SurveyTerminates := by
  refine ⟨fun s t hlegal _ _ hexec hmode => ?_, fun s t hexec => ?_, fun s t hseq hreset hstep => ?_⟩
  · obtain ⟨-, m, hm, rfl⟩ := execProcSurvey_next s t hexec
    have hless := surveyBudget_applyOutcome m (inRange_measureWindow s m hlegal.inRange hm) hmode
    obtain ⟨a, f, v, rfl⟩ := measureWindow_fields s m hm
    exact hless
  · obtain ⟨-, rfl⟩ := (onlyIf_next _ _ _ _).mp hexec
    exact surveyBudget_beginSurvey s
  · obtain ⟨inp, hd⟩ := step_effect s t hstep
    exact (did_surveyBudget _ _ t hd).resolve_right (not_or.mpr ⟨hseq, hreset⟩)

end Sys2Proof.Machine

/-! The exceptional steps (60_exceptions R903, R911): the order in which the events of one instant are taken, and the
survey that an expired window aborts. -/

namespace Sys2Proof.Machine

/-- None is the first of a kind that no event of the instant has. -/
theorem takeBy_eq_none (p : Event → Bool) (now : List Event) (h : ∀ ev ∈ now, p ev = false) : takeBy p now = none := by
  simpa [takeBy] using h

/-- A reset is taken before all but reserved codes, and nothing is left of its instant (60_exceptions R903). -/
theorem takeEvent_of_reset (now : List Event) (hvalid : ∀ ev ∈ now, isReserved ev = false)
    (hreset : ∃ ev ∈ now, isReset ev = true) :
    ∃ ev ∈ now, isReset ev = true ∧ takeEvent now = some (ev, []) := by
  obtain ⟨ev, hfind⟩ := Option.isSome_iff_exists.mp (List.find?_isSome.mpr hreset)
  have htake : takeBy isReset now = some (ev, now.eraseP isReset) := by rw [takeBy, hfind, Option.map_some]
  refine ⟨ev, List.mem_of_find?_eq_some hfind, List.find?_some hfind, ?_⟩
  rw [takeEvent, takeBy_eq_none isReserved now hvalid, htake]

/-- An expiry is taken before an edge, in whichever order they are presented, and the edge is left (60_exceptions R903). -/
theorem takeEvent_of_expiry_and_edge (l : Bool) (e : Nat) (now : List Event)
    (h : now = [edgeInto l e, expireEvent] ∨ now = [expireEvent, edgeInto l e]) :
    takeEvent now = some (expireEvent, [edgeInto l e]) := by
  rcases h with rfl | rfl <;> cases l <;> rfl

/-- The event taken of an instant is run where it decodes, with the rest of the instant still to come. -/
theorem step_of_taken (s : State) (now rest : List Event) (later : List (List Event)) (ev : Event) (i : Instr)
    (hinput : s.input = now :: later) (htake : takeEvent now = some (ev, rest))
    (hdecode : decode (tableCtx s) (eventWord ev) = .ok i) :
    step s = exec i { s with input := stillToCome rest later } := by
  have hfetch : fetch s = decodeIn { s with input := stillToCome rest later } (eventWord ev) := by
    simp [fetch, hinput, htake]
  exact step_of_run s _ i (hfetch.trans (decodeIn_of_ok _ _ i hdecode))

/-- The one well-formed RESET event (30_encoding R345). -/
theorem eq_reset_of_isReset (ev : Event) (hcode : isReset ev = true) (he : ev.e = 0) : ev = ⟨4, 0⟩ := by
  obtain ⟨code, e⟩ := ev
  obtain rfl : code = 4 := beq_iff_eq.mp hcode
  obtain rfl : e = 0 := he
  rfl

/-- An edge that comes when the window has closed is passed over (41_capture R502). -/
theorem step_of_edge_after_close (s : State) (l : Bool) (e : Nat) (later : List (List Event)) (hopen : s.winOpen = true)
    (hseq : s.seq ≠ .wait) (hinput : s.input = [edgeInto l e] :: later) :
    step s = .next { s with input := later } := by
  rw [step_of_later_edge s l e later hopen hinput]
  exact if_pos ((edgeIgnored_eq_true (polarityInto l) _).mpr (.inl hseq))

/-- Settles O13: a reset is taken first and alone; an expiry is taken before an edge, which then finds SEQ = PROC. -/
theorem simultaneousEventsAreTakenInOrder : Obligations.SimultaneousEventsAreTakenInOrder := by
  refine ⟨fun s now later hinput hreset hvalid hfield => ?_,
    fun s c e now later hc hnow hinput hseq harmed hopen => ?_⟩
  · obtain ⟨r, hr, hcode, -⟩ := hreset
    obtain ⟨ev, hmem, hisReset, htake⟩ := takeEvent_of_reset now hvalid ⟨r, hr, hcode⟩
    obtain rfl := eq_reset_of_isReset ev hisReset (hfield ev hmem hisReset)
    exact step_of_taken s now [] later _ .reset hinput htake rfl
  · obtain ⟨l, hl⟩ : ∃ l, edgeInto l e = ⟨c, e⟩ := by
      rcases hc with rfl | rfl
      · exact ⟨false, rfl⟩
      · exact ⟨true, rfl⟩
    rw [← hl] at hnow ⊢
    have htake := takeEvent_of_expiry_and_edge l e now hnow
    have hstep := step_of_taken s now _ later _ .capExpire hinput htake rfl
    have hruns := (timerRuns_eq_true s).mpr ⟨hseq, harmed, hopen⟩
    exact ⟨_, hstep.trans (if_pos hruns), rfl, rfl, step_of_edge_after_close _ l e later hopen nofun rfl⟩

/-- WindowTimeout queues ERROR, and writes MODE and the registers of InitCal and InitSearch (60_exceptions R911). -/
theorem emits_raiseWindowTimeout (k : BitVec 4) (s : State) :
    Emits [.mode, .coarse, .fine, .phase, .dir, .havePrev, .lastAction, .priorFreq, .priorErr, .priorVar] [0xEE] s
      (raiseWindowTimeout k s) :=
  ((((emits_emitReply .error s).trans (emits_initSearch _)).trans (emits_initCal _)).trans
    (emits_setReg _ .mode 0)).mono (by decide)

/-- Settles O42: an expired window selects the timeout, whose effect is WindowTimeout. -/
theorem timeoutAbortsTheSurvey : Obligations.TimeoutAbortsTheSurvey := fun s hseq hmode hclose =>
  ⟨raiseWindowTimeout s.edgeCnt s,
    exec_of_selectOutcome .timeout s hseq hmode ((selectOutcome_timeout s).mpr hclose),
    rfl, rfl, rfl, rfl, rfl, rfl, rfl, rfl, rfl, rfl, emits_raiseWindowTimeout s.edgeCnt s⟩

end Sys2Proof.Machine

/-! RESET in any state (70_reset_and_hazards R1000, R1004). -/

namespace Sys2Proof.Machine

/-- The events to come and the bytes sent are no registers. -/
theorem readReg_with_input_sent (s : State) (later : List (List Event)) (bs : List Byte) (r : Reg) :
    readReg { s with input := later, sent := bs } r = readReg s r := by
  cases r <;> rfl

/-- After RESET the registers hold the reset column, as after power-on. -/
theorem readReg_resetBlock (s : State) (r : Reg) : readReg (resetBlock s) r = resetColumn s.cfg r := by
  rw [resetBlock_eq, readReg_with_input_sent, readReg_resetWith]

/-- Settles O50: RESET leads to the state after power-on under the same parameters, with the slots, the events to come
and the bytes sent as they were. -/
theorem resetEvent : Obligations.ResetEvent := fun s =>
  ⟨resetBlock s, rfl, readReg_resetBlock s, rfl, fun _ _ => rfl, rfl, rfl, rfl⟩

end Sys2Proof.Machine
